-- ==== Sys2Proof/Word.lean ====
section
/-! DEFINITION. The words of the block: bytes, the 16-bit word of the command port and of the wide registers, and byte
sequences (00_scope.md R10, R11). Every value is unsigned; there are no signed values in the block. -/

namespace Sys2Proof

/-- An 8-bit byte (R10). -/
abbrev Byte := BitVec 8

/-- A 16-bit word: a command word (R90) or a 16-bit register (R20). -/
abbrev Word := BitVec 16

/-- A byte sequence (R11): a finite list of bytes, byte 0 first. -/
abbrev Bytes := List Byte

end Sys2Proof
end

