-- ==== Sys2Proof/Machine/Event.lean ====
section
/-! DEFINITION. The data that leaves the block: message types (10_state.md R29), tokens (R43), token records
(43_frame.md R182) and the events of the I/O history H (20_memory.md R64). Types only. -/

namespace Sys2Proof.Machine

/-- The message type held in STATUS.MTYPE (10_state.md R29). The values 5 to 7 are never written, so no constructor
stands for them (93_implementation_defined.md U20, log 8). -/
inductive MsgType where
  | none | wind | ptu | rain | status
  deriving DecidableEq, Repr

/-- One token: a label and a value, both byte sequences (10_state.md R43). -/
structure Token where
  label : Bytes
  value : Bytes
  deriving DecidableEq, Repr

/-- The token record handed to the record port (43_frame.md R182). -/
structure Record where
  haddr  : Byte
  hcode0 : Byte
  hcode1 : Byte
  mtype  : MsgType
  tokens : List Token
  deriving DecidableEq, Repr

/-- One event of the I/O history H (20_memory.md R64). A port index and a baud rate are counts, not words. -/
inductive Event where
  | openPort (p baud : Nat) (ok : Bool)
  | settle
  | flush
  | write (s : Bytes)
  | readLine (s : Bytes)
  | close
  | emit (r : Record)
  deriving DecidableEq, Repr

end Sys2Proof.Machine
end

