-- ==== Sys2Proof/Config.lean ====
section
/-! DEFINITION. What an implementation fixes (the parameters of 00_scope.md R9) and the free values: what the transport
answers where nothing else says so (20_memory.md R67, R69). -/

namespace Sys2Proof

/-- The parameters of 00_scope.md R9. They are arguments of the model, not registers (10_state.md R46): the machine
carries them in `State.params`, no step changes them, and a statement about every state holds for every value of them.
`tSettle` and `tRead` are read by no rule (92_eei_decisions.md D21). -/
structure Params where
  /-- P_LBUF_MAX, the capacity of LBUF in bytes. -/
  lbufMax : Nat
  /-- P_NTOK_MAX, the capacity of the token store. -/
  ntokMax : Nat
  /-- P_NPORTS, the number of candidate ports. -/
  nports : Nat
  /-- P_BAUDS, the candidate baud rates of discovery, in order. -/
  bauds : List Nat
  /-- P_MODEL_ID, the byte string a settings reply must contain. -/
  modelId : Bytes
  /-- P_T_SETTLE, a duration no rule reads. -/
  tSettle : Nat
  /-- P_T_READ, a duration no rule reads. -/
  tRead : Nat
  deriving DecidableEq, Repr

/-- The parameters of the standard start state S0 of 95_test_vectors.md; 0 for the two durations, which the spec leaves
open and no rule reads. DESIGN CHOICE, unsafe for a claim that rests on these numbers (log 1). -/
def Params.standard : Params where
  lbufMax := 256
  ntokMax := 16
  nports := 1
  bauds := [9600]
  modelId := [0x58, 0x59, 0x5A]
  tSettle := 0
  tRead := 0

/-- The session baud rate, a constant of the source (00_scope.md R7). -/
def sessionBaud : Nat := 9600

/-- What the n-th `XptOpen` returns after the history h, when no answer is listed: a draw of the transport
(20_memory.md R67), so a free value (log 2). -/
opaque Config.freeOpen : Nat → List Machine.Event → Bool

/-- The bytes the device sends for the n-th `XptReadLine` after the history h, when none are listed: a draw of the
transport (20_memory.md R69), so a free value (log 2). -/
opaque Config.freeLine : Nat → List Machine.Event → Bytes

end Sys2Proof
end

