-- ==== Sys2Proof/Machine/State.lean ====
section
/-! DEFINITION. The state of the WXT520 frame engine (10_state.md), its reset value (R47, 70_reset_and_hazards.md R300)
and the reasons a step can stop (none). Plain data. -/

namespace Sys2Proof.Machine

/-- The 16 result codes of STATUS.RES (60_exceptions.md R271). -/
inductive ResCode where
  | ok | crcMismatch | short | empty | unknownCode | nonascii | overflow | noAddressReply
  | noMatch | notFound | setupFailed | illegal | notOpen | noAddr | badState | openFailed
  deriving DecidableEq, Repr

/-- The states of SESS (10_state.md R35). The value 7 is never written, so no constructor stands for it
(U20, log 8). -/
inductive Sess where
  | idle | scanning | found | notFound | establishing | sessionReady | sessionFailed
  deriving DecidableEq, Repr

/-- The fields of STATUS (10_state.md R23). The register's word is `Status.word`; the host cannot write it (R22), so no
write back can reach the reserved bit 15. -/
@[ext]
structure Status where
  /-- RES [3:0]: the result code of the last completed command (R24). -/
  res : ResCode
  /-- VFY [4] (R25). -/
  vfy : Bool
  /-- OPEN [5] (R26); `open` is a word of Lean. -/
  opn : Bool
  /-- ADDRV [6] (R27). -/
  addrv : Bool
  /-- AUTO [7] (R28). -/
  auto : Bool
  /-- MTYPE [10:8] (R29). -/
  mtype : MsgType
  /-- TERM [11] (R30). -/
  term : Bool
  /-- OVF [12] (R31). -/
  ovf : Bool
  /-- FATAL [13] (R32). -/
  fatal : Bool
  /-- BUSY [14] (R33). -/
  busy : Bool
  deriving DecidableEq, Repr

/-- The transport, the external agent of 20_memory.md R66, as far as it decides what the block reads. `rx` is its input
queue (10_state.md R45 (a), R70). The other fields are the model's own: the answers listed for future calls, and how
many were drawn; past the end of a list the answer is a free value (log 2). -/
structure Transport where
  /-- Bytes the device has sent that no readline has returned yet. -/
  rx : Bytes
  /-- The results of the next `XptOpen`s, first first. -/
  opens : List Bool
  /-- What the device sends for the next `XptReadLine`s, first first. -/
  lines : List Bytes
  /-- How many `XptOpen` results were drawn. -/
  opensDrawn : Nat
  /-- How many device lines were drawn. -/
  linesDrawn : Nat
  deriving DecidableEq, Repr

/-- What the host or its platform presents to the block (60_exceptions.md R290): a command word (30_encoding.md R90), a
word as its two bytes (20_memory.md R65), or a reset (70_reset_and_hazards.md R300). After a reset the transport is in
any state (U23), which the input names. -/
inductive HostInput where
  | word (w : Word)
  | wordBytes (first second : Byte)
  | reset (after : Transport)
  deriving DecidableEq, Repr

/-- The machine's state. The fields down to `hist` are the spec's; `xpt` and `host` are the agents around the block and
`params` its arguments. LLEN and NTOK are the lengths of `lbuf` and `tok` (log 6). -/
@[ext]
structure State where
  /-- STATUS (R23), register 0x00. -/
  status : Status
  /-- SESS (R35), register 0x01. -/
  sess : Sess
  /-- ACC (R36), register 0x02. -/
  acc : Word
  /-- CHK0 (R37), register 0x03. -/
  chk0 : Byte
  /-- CHK1 (R37), register 0x04. -/
  chk1 : Byte
  /-- CHK2 (R37), register 0x05. -/
  chk2 : Byte
  /-- ADDR (R38), register 0x06. -/
  addr : Byte
  /-- PORT (R39), register 0x07. -/
  port : Byte
  /-- FPORT (R40), register 0x08. -/
  fport : Byte
  /-- The line `LBUF[0..LLEN)` (R41); LLEN, register 0x09, is its length. -/
  lbuf : Bytes
  /-- HADDR (R42), register 0x0A. -/
  haddr : Byte
  /-- HCODE0 (R42), register 0x0B. -/
  hcode0 : Byte
  /-- HCODE1 (R42), register 0x0C. -/
  hcode1 : Byte
  /-- HLEN (R42), register 0x0D. -/
  hlen : Word
  /-- The tokens `TOK[0..NTOK)` (R43); NTOK, register 0x0E, is their number. -/
  tok : List Token
  /-- The I/O history H in the order performed (20_memory.md R64). -/
  hist : List Event
  /-- The transport agent (R66). -/
  xpt : Transport
  /-- What the host will present, first first (R290); the block neither queues nor drops it (R91). -/
  host : List HostInput
  /-- The parameters of 00_scope.md R9 (R46: arguments, not registers). -/
  params : Params
  deriving DecidableEq, Repr

/-- A step never stops with a fault: "The block raises no exception, trap or interrupt" (60_exceptions.md R270). The type
has no constructor, so no definition of the model can answer one. Safe: nothing is lost. -/
inductive Fault
  deriving DecidableEq, Repr

/-- Why a step has no meaning. -/
inductive Refusal where
  /-- Raised by exec for a command that has no meaning yet. No arm raises it: every command of R92 is modelled. Safe: the
  machine stops where the hardware goes on. -/
  | notModelled (mnemonic : String)
  deriving DecidableEq, Repr

/-- What a command answers. -/
abbrev Result := Host.Outcome State Fault Refusal

/-- STATUS after reset, 0x0000 (10_state.md R47). -/
def Status.reset : Status where
  res := .ok
  vfy := false
  opn := false
  addrv := false
  auto := false
  mtype := .none
  term := false
  ovf := false
  fatal := false
  busy := false

/-- A transport with an empty input queue and no listed answer, so that every answer it gives is a free value.
R47 names no value for the transport's own state: DESIGN CHOICE (log 2, log 5). -/
def Transport.silent : Transport where
  rx := []
  opens := []
  lines := []
  opensDrawn := 0
  linesDrawn := 0

/-- The machine right after reset: every register at the value of 10_state.md R47 (70_reset_and_hazards.md R300). The
parameters are those of `Params.standard` (log 1), and no input is listed (log 2, log 3). -/
def State.reset : State where
  status := Status.reset
  sess := .idle
  acc := 0x0000
  chk0 := 0x40
  chk1 := 0x40
  chk2 := 0x40
  addr := 0x00
  port := 0x00
  fport := 0x00
  lbuf := []
  haddr := 0x00
  hcode0 := 0x00
  hcode1 := 0x00
  hlen := 0
  tok := []
  hist := []
  xpt := Transport.silent
  host := []
  params := Params.standard

end Sys2Proof.Machine
end

