-- ==== Sys2Proof/Machine/Checksum.lean ====
section
/-! DEFINITION. The checksum arithmetic of 41_crc.md: the CRC-16 step (R120), the CRC of a byte sequence (R121) and the
3-byte packing (R122). -/

namespace Sys2Proof.Machine

/-- One of the eight shifts of `crc_step` (R120): the low bit is tested first (20_memory.md R63), and the shift fills
bit 15 with 0 before the XOR. -/
def crcShift (acc : Word) : Word :=
  if acc.getLsbD 0 then (acc >>> 1) ^^^ 0xA001#16 else acc >>> 1

/-- n shifts in a row (R120 makes 8). -/
def crcShifts : Nat → Word → Word
  | 0, acc => acc
  | n + 1, acc => crcShifts n (crcShift acc)

/-- `crc_step(acc, b)` of R120. -/
def crcStep (acc : Word) (b : Byte) : Word :=
  crcShifts 8 (acc ^^^ b.setWidth 16)

/-- `crc16(s)` of R121: start from 0x0000, fold every byte in order, no final XOR (00_scope.md R8). -/
def crc16 (s : Bytes) : Word :=
  s.foldl crcStep 0x0000#16

/-- byte0 of `pack` (R122): 0x40 | crc[15:12]. -/
def pack0 (crc : Word) : Byte := 0x40#8 ||| (crc.extractLsb' 12 4).setWidth 8

/-- byte1 of `pack` (R122): 0x40 | crc[11:6]. -/
def pack1 (crc : Word) : Byte := 0x40#8 ||| (crc.extractLsb' 6 6).setWidth 8

/-- byte2 of `pack` (R122): 0x40 | crc[5:0]. -/
def pack2 (crc : Word) : Byte := 0x40#8 ||| (crc.extractLsb' 0 6).setWidth 8

/-- `pack(crc)` of R122, first byte first. -/
def pack (crc : Word) : Bytes := [pack0 crc, pack1 crc, pack2 crc]

/-- The inverse of `pack` on its image (R123). -/
def unpack (b0 b1 b2 : Byte) : Word :=
  ((b0 &&& 0x0F#8).setWidth 16 <<< 12) ||| ((b1 &&& 0x3F#8).setWidth 16 <<< 6) ||| (b2 &&& 0x3F#8).setWidth 16

end Sys2Proof.Machine
end

