-- ==== Sys2Proof/Machine/Text.lean ====
section
/-! DEFINITION. The pure helpers over byte sequences: stripping, trimming, the frame check, splitting and
classification (43_frame.md R170 to R174), the reply tests and command frames (44_wire.md R200, R201, R206 to R208), and
how a readline cuts the device's bytes (20_memory.md R69). -/

namespace Sys2Proof.Machine

/-- Drop bytes from the end while they satisfy p. -/
def dropEndWhile (p : Byte → Bool) (s : Bytes) : Bytes := (s.reverse.dropWhile p).reverse

/-- CR or LF, the bytes of a line terminator (R170). -/
def isTerm (b : Byte) : Bool := b == 0x0D || b == 0x0A

/-- `strip_term(s)` of R170: every trailing 0x0D and 0x0A goes. -/
def stripTerm (s : Bytes) : Bytes := dropEndWhile isTerm s

/-- The whitespace set W of R171. -/
def isWs (b : Byte) : Bool :=
  b == 0x09 || b == 0x0A || b == 0x0B || b == 0x0C || b == 0x0D || b == 0x20

/-- `trim_ws(s)` of R171: leading bytes of W, then trailing ones. -/
def trimWs (s : Bytes) : Bytes := dropEndWhile isWs (s.dropWhile isWs)

/-- All but the last three bytes: `t[0 .. max(0, |t|-3))` (R172, R177). -/
def dropLast3 (s : Bytes) : Bytes := s.take (s.length - 3)

/-- The verdict of the frame check (R172), with the CRC where one was computed. -/
inductive Verdict where
  | short
  | valid (crc : Word)
  | mismatch (crc : Word)
  deriving DecidableEq, Repr

/-- `verify_bytes(s)` of R172. -/
def verifyBytes (s : Bytes) : Verdict :=
  let t := stripTerm s
  if t.length < 3 then .short
  else
    let c := crc16 (dropLast3 t)
    if pack c = t.drop (t.length - 3) then .valid c else .mismatch c

/-- `split(s, c)` of R173: k occurrences of c give k+1 pieces. -/
def split (c : Byte) : Bytes → List Bytes
  | [] => [[]]
  | b :: bs =>
    if b = c then [] :: split c bs
    else
      match split c bs with
      | [] => [[b]]
      | p :: ps => (b :: p) :: ps

/-- `split_first_eq(p)` of R173: cut at the first 0x3D; none where p holds no 0x3D. -/
def splitFirstEq : Bytes → Option Token
  | [] => none
  | b :: bs =>
    if b = 0x3D#8 then some { label := [], value := bs }
    else
      match splitFirstEq bs with
      | none => none
      | some t => some { label := b :: t.label, value := t.value }

/-- `classify(code)` of R174, byte-exact: r1, r2, r3, r5, and nothing else. -/
def classify (code : Bytes) : MsgType :=
  if code = [0x72, 0x31] then .wind
  else if code = [0x72, 0x32] then .ptu
  else if code = [0x72, 0x33] then .rain
  else if code = [0x72, 0x35] then .status
  else .none

/-- `body` of R177: trim, then drop the 3-byte checksum. -/
def frameBody (s : Bytes) : Bytes := dropLast3 (trimWs s)

/-- Some byte is 0x80 or above (R177). -/
def hasNonAscii (s : Bytes) : Bool := s.any fun b => 0x80 ≤ b.toNat

/-- `contains(s, t)` of 00_scope.md R11: t stands somewhere in s; true for t = []. -/
def contains (t : Bytes) : Bytes → Bool
  | [] => t.isEmpty
  | b :: bs => t.isPrefixOf (b :: bs) || contains t bs

/-- `is_alnum(b)` of 44_wire.md R200. -/
def isAlnum (b : Byte) : Bool :=
  let n := b.toNat
  (0x30 ≤ n && n ≤ 0x39) || (0x41 ≤ n && n ≤ 0x5A) || (0x61 ≤ n && n ≤ 0x7A)

/-- `probe_frame()` of R201: `?\r\n`. -/
def probeFrame : Bytes := [0x3F, 0x0D, 0x0A]

/-- `settings_frame(a)` of R201: `<a>XU\r\n`. -/
def settingsFrame (a : Byte) : Bytes := [a, 0x58, 0x55, 0x0D, 0x0A]

/-- `setmode_frame(a)` of R201: `<a>XU,M=a\r\n`. -/
def setmodeFrame (a : Byte) : Bytes := [a, 0x58, 0x55, 0x2C, 0x4D, 0x3D, 0x61, 0x0D, 0x0A]

/-- The automatic-mode acknowledgment marker `,M=a` (00_scope.md R7). -/
def ackMarker : Bytes := [0x2C, 0x4D, 0x3D, 0x61]

/-- `address_ok(s)` of R207. -/
def addressOk : Bytes → Bool
  | [] => false
  | b :: _ => isAlnum b

/-- `ident_ok(s)` of R208, for the model identifier m. -/
def identOk (m s : Bytes) : Bool := contains m s

/-- `ack_ok(s)` of R208. -/
def ackOk (s : Bytes) : Bool := contains ackMarker s

/-- s ends in 0x0A (42_line.md R151: TERM). -/
def endsInLf (s : Bytes) : Bool := s.getLast? == some 0x0A

/-- Cut a byte queue after its first 0x0A: the line a readline returns, and what it does not consume
(20_memory.md R69, 42_line.md R154). With no 0x0A everything is returned. -/
def cutLine : Bytes → Bytes × Bytes
  | [] => ([], [])
  | b :: bs =>
    if b = 0x0A#8 then ([b], bs)
    else (b :: (cutLine bs).1, (cutLine bs).2)

end Sys2Proof.Machine
end

