-- ==== Sys2Proof/Machine/Flags.lean ====
section
/-! DEFINITION. The numbers behind the named values (60_exceptions.md R271, 10_state.md R35, R29) and the word of
STATUS (R23). -/

namespace Sys2Proof.Machine

/-- A flag as its bit. -/
def bit (b : Bool) : BitVec 1 := BitVec.ofBool b

/-- The value of a result code in STATUS.RES (60_exceptions.md R271). -/
def ResCode.code : ResCode → BitVec 4
  | .ok => 0x0
  | .crcMismatch => 0x1
  | .short => 0x2
  | .empty => 0x3
  | .unknownCode => 0x4
  | .nonascii => 0x5
  | .overflow => 0x6
  | .noAddressReply => 0x7
  | .noMatch => 0x8
  | .notFound => 0x9
  | .setupFailed => 0xA
  | .illegal => 0xB
  | .notOpen => 0xC
  | .noAddr => 0xD
  | .badState => 0xE
  | .openFailed => 0xF

/-- The value of SESS (10_state.md R35); bits [7:3] are 0. -/
def Sess.code : Sess → Byte
  | .idle => 0
  | .scanning => 1
  | .found => 2
  | .notFound => 3
  | .establishing => 4
  | .sessionReady => 5
  | .sessionFailed => 6

/-- The value of STATUS.MTYPE (10_state.md R29). -/
def MsgType.code : MsgType → BitVec 3
  | .none => 0
  | .wind => 1
  | .ptu => 2
  | .rain => 3
  | .status => 4

/-- The STATUS register's word (10_state.md R23), bit 15 first: it is reserved and reads 0 (R34). -/
def Status.word (t : Status) : Word :=
  0#1 ++ bit t.busy ++ bit t.fatal ++ bit t.ovf ++ bit t.term ++ t.mtype.code ++ bit t.auto ++ bit t.addrv ++
    bit t.opn ++ bit t.vfy ++ t.res.code

/-- A session state that no command leaves (R35): only reset does (70_reset_and_hazards.md R302). -/
def Sess.terminal : Sess → Bool
  | .notFound => true
  | .sessionFailed => true
  | .idle | .scanning | .found | .establishing | .sessionReady => false

end Sys2Proof.Machine
end

