-- ==== Sys2Proof/Machine/Operands.lean ====
section
/-! DEFINITION. What IMM8 means to a command (30_encoding.md R93): an unsigned byte, used as a data byte, an address byte
or a port index. No command scales, shifts or sign-extends it. -/

namespace Sys2Proof.Machine

/-- The data byte b of CRC.BYTE and LINE.PUT (R93). -/
def dataByte (imm : Byte) : Byte := imm

/-- The address byte a of ADDR.SET (R93). -/
def addrByte (imm : Byte) : Byte := imm

/-- The port index p of XPT.OPEN, SEQ.PROBE and SEQ.ESTABLISH (R93). -/
def portIndex (imm : Byte) : Nat := imm.toNat

/-- A port index is legal when p < P_NPORTS (R93). -/
def portLegal (s : State) (p : Nat) : Bool := p < s.params.nports

/-- A port index as the byte held in PORT and FPORT (10_state.md R39, R40). -/
def portByte (p : Nat) : Byte := BitVec.ofNat 8 p

end Sys2Proof.Machine
end

