-- ==== Sys2Proof/Machine/Ops.lean ====
section
/-! DEFINITION. The shared operations of the commands: acceptance and `finish` (00_scope.md R13, 30_encoding.md R91), the
line buffer (42_line.md R150, R151), the transport primitives (20_memory.md R67 to R72), the record port (R73),
`clear_frame` (43_frame.md R175) and reset (70_reset_and_hazards.md R300). The block has no exception (60_exceptions.md
R270): `finish` is the one ending of every command, whatever its result. -/

namespace Sys2Proof.Machine

/-! ## Acceptance and finish -/

/-- A command word is accepted: BUSY <- 1 (30_encoding.md R91). -/
def accept (s : State) : State :=
  { s with status := { s.status with busy := true } }

/-- The state `finish(code)` leaves: RES <- code, BUSY <- 0 (00_scope.md R13). -/
def finished (c : ResCode) (s : State) : State :=
  { s with status := { s.status with res := c, busy := false } }

/-- `finish(code)`: the command ends, with no trap (00_scope.md R13, 60_exceptions.md R270). -/
def finish (c : ResCode) (s : State) : Result :=
  .next (finished c s)

/-- The `finish` of a command whose body answers its result code and the state it left. -/
def ended (r : ResCode × State) : Result :=
  finish r.1 r.2

/-! ## Register writes -/

/-- `STATUS.VFY <- b`. -/
def setVfy (b : Bool) (s : State) : State :=
  { s with status := { s.status with vfy := b } }

/-- `SESS <- q`. -/
def setSess (q : Sess) (s : State) : State :=
  { s with sess := q }

/-- `STATUS.ADDRV <- b`. -/
def setAddrv (b : Bool) (s : State) : State :=
  { s with status := { s.status with addrv := b } }

/-- `ADDR <- a; STATUS.ADDRV <- 1` (44_wire.md R209, 45_session.md R236, R237). -/
def setAddr (a : Byte) (s : State) : State :=
  { s with addr := a, status := { s.status with addrv := true } }

/-- `STATUS.AUTO <- b`. -/
def setAuto (b : Bool) (s : State) : State :=
  { s with status := { s.status with auto := b } }

/-- `SESS <- q; STATUS.FATAL <- 1`: a setup failure (10_state.md R32, 60_exceptions.md R272 (b)). -/
def setFatal (q : Sess) (s : State) : State :=
  { s with sess := q, status := { s.status with fatal := true } }

/-- `FPORT <- p; SESS <- FOUND` (45_session.md R238, R239). -/
def setFound (p : Nat) (s : State) : State :=
  { s with fport := portByte p, sess := .found }

/-- `[CHK0, CHK1, CHK2] <- pack(c)` (41_crc.md R126, 43_frame.md R176). -/
def setChk (c : Word) (s : State) : State :=
  { s with chk0 := pack0 c, chk1 := pack1 c, chk2 := pack2 c }

/-- `ACC <- c; [CHK0, CHK1, CHK2] <- pack(c)` (43_frame.md R176). -/
def setCrc (c : Word) (s : State) : State :=
  setChk c { s with acc := c }

/-! ## The line buffer -/

/-- `lbuf_append(b)` (42_line.md R150): a byte beyond P_LBUF_MAX is dropped and OVF set. -/
def lbufAppend (b : Byte) (s : State) : State :=
  if s.lbuf.length < s.params.lbufMax then { s with lbuf := s.lbuf ++ [b] }
  else { s with status := { s.status with ovf := true } }

/-- Append the bytes of a sequence, in order (42_line.md R151). -/
def lbufAppendAll : Bytes → State → State
  | [], s => s
  | b :: bs, s => lbufAppendAll bs (lbufAppend b s)

/-- The line emptied: `LLEN <- 0; STATUS.OVF <- 0` (42_line.md R151, R152). -/
def lineEmpty (s : State) : State :=
  { s with lbuf := [], status := { s.status with ovf := false } }

/-- `STATUS.TERM <- t; STATUS.VFY <- 0`: what every writer of LBUF does to these flags (42_line.md R151 to R153). -/
def lineFlags (t : Bool) (s : State) : State :=
  { s with status := { s.status with term := t, vfy := false } }

/-- `line_load(s)` (42_line.md R151). TERM describes the sequence as received, even when its 0x0A was dropped. -/
def lineLoad (l : Bytes) (s : State) : State :=
  lineFlags (endsInLf l) (lbufAppendAll l (lineEmpty s))

/-! ## The frame registers -/

/-- `clear_frame()` (43_frame.md R175). -/
def clearFrame (s : State) : State :=
  { s with
    haddr := 0x00, hcode0 := 0x00, hcode1 := 0x00, hlen := 0, tok := []
    status := { s.status with mtype := .none } }

/-- The header registers and MTYPE from the header piece (43_frame.md R179). -/
def setHeader (h : Bytes) (s : State) : State :=
  { s with
    hlen := BitVec.ofNat 16 h.length
    haddr := h.getD 0 0x00
    hcode0 := h.getD 1 0x00
    hcode1 := h.getD 2 0x00
    status := { s.status with mtype := classify h.tail } }

/-- The token store written. -/
def setTok (ts : List Token) (s : State) : State :=
  { s with tok := ts }

/-! ## The transport and the record port -/

/-- One event appended to H (20_memory.md R64). -/
def logEvent (e : Event) (s : State) : State :=
  { s with hist := s.hist ++ [e] }

/-- The transport's answer to an open: the next listed one, else a free value (20_memory.md R67, log 2). -/
def Transport.openAnswer (t : Transport) (h : List Event) : Bool :=
  match t.opens with
  | ok :: _ => ok
  | [] => Config.freeOpen t.opensDrawn h

/-- What the device sends for a readline: the next listed bytes, else a free value (20_memory.md R69, log 2). -/
def Transport.sent (t : Transport) (h : List Event) : Bytes :=
  match t.lines with
  | l :: _ => l
  | [] => Config.freeLine t.linesDrawn h

/-- The transport after an open: its answer is used up, and a newly opened port brings an empty queue (log 5). -/
def Transport.afterOpen (t : Transport) : Transport :=
  { t with rx := [], opens := t.opens.tail, opensDrawn := t.opensDrawn + 1 }

/-- The bytes a readline cuts its line from, and the transport with them received: a queue that holds a whole line is
not added to; to any other the device's next bytes are (20_memory.md R69, R78 (d)). -/
def Transport.receive (t : Transport) (h : List Event) : Transport :=
  if t.rx.contains 0x0A then t
  else { t with rx := t.rx ++ t.sent h, lines := t.lines.tail, linesDrawn := t.linesDrawn + 1 }

/-- The line a readline returns (20_memory.md R69). -/
def Transport.lineRead (t : Transport) (h : List Event) : Bytes :=
  (cutLine (t.receive h).rx).1

/-- The transport after a readline: what stood behind the line's 0x0A is not consumed (42_line.md R154). -/
def Transport.afterRead (t : Transport) (h : List Event) : Transport :=
  { t.receive h with rx := (cutLine (t.receive h).rx).2 }

/-- The line the next `XptReadLine` returns (20_memory.md R69). -/
def nextLine (s : State) : Bytes := s.xpt.lineRead s.hist

/-- What the next `XptOpen` returns (20_memory.md R67). -/
def nextOpen (s : State) : Bool := s.xpt.openAnswer s.hist

/-- The state `XptOpen(p, baud)` leaves; on ok, `STATUS.OPEN <- 1; PORT <- p` (20_memory.md R67). -/
def xptOpen (p baud : Nat) (s : State) : State :=
  let ok := nextOpen s
  logEvent (.openPort p baud ok)
    { s with
      xpt := s.xpt.afterOpen
      port := if ok then portByte p else s.port
      status := { s.status with opn := ok || s.status.opn } }

/-- `XptSettle()` (20_memory.md R71): the untimed model keeps only the event. -/
def xptSettle (s : State) : State :=
  logEvent .settle s

/-- `XptFlush()` (20_memory.md R70): the transport's input queue is discarded. -/
def xptFlush (s : State) : State :=
  logEvent .flush { s with xpt := { s.xpt with rx := [] } }

/-- `XptWrite(l)` (20_memory.md R68). -/
def xptWrite (l : Bytes) (s : State) : State :=
  logEvent (.write l) s

/-- The state `XptReadLine()` leaves; the line it returns is `nextLine` (20_memory.md R69). -/
def xptReadLine (s : State) : State :=
  logEvent (.readLine (nextLine s)) { s with xpt := s.xpt.afterRead s.hist }

/-- `XptClose()` (20_memory.md R72). -/
def xptClose (s : State) : State :=
  logEvent .close { s with status := { s.status with opn := false } }

/-- `line_load(XptReadLine())` (42_line.md R154, 45_session.md R237, R246, R250). -/
def readIntoLine (s : State) : State :=
  lineLoad (nextLine s) (xptReadLine s)

/-- The token record of the frame registers (43_frame.md R182). -/
def tokenRecord (s : State) : Record :=
  { haddr := s.haddr, hcode0 := s.hcode0, hcode1 := s.hcode1, mtype := s.status.mtype, tokens := s.tok }

/-- `Emit(r)` with r the token record (20_memory.md R73, 43_frame.md R183). -/
def emitRecord (s : State) : State :=
  logEvent (.emit (tokenRecord s)) s

/-! ## Reset -/

/-- Reset (70_reset_and_hazards.md R300): every piece of the block's state to its value of 10_state.md R47, H emptied,
the transport closed with no event. The parameters do not change (R303), the host goes on with its inputs, and the
transport is in the state the input names (U23). -/
def resetBlock (after : Transport) (s : State) : State :=
  { State.reset with params := s.params, host := s.host, xpt := after }

end Sys2Proof.Machine
end

