-- ==== Sys2Proof/Machine/Crc.lean ====
section
/-! DEFINITION. The CRC family (41_crc.md R124 to R126). -/

namespace Sys2Proof.Machine

/-- CRC.CLR (R124). -/
def execCrcClr (s : State) : Result :=
  finish .ok { s with acc := 0x0000 }

/-- CRC.BYTE b (R125). -/
def execCrcByte (b : Byte) (s : State) : Result :=
  finish .ok { s with acc := crcStep s.acc (dataByte b) }

/-- CRC.PACK (R126). -/
def execCrcPack (s : State) : Result :=
  finish .ok (setChk s.acc s)

end Sys2Proof.Machine
end

