-- ==== Sys2Proof/Machine/Pipeline.lean ====
section
/-! DEFINITION. The frame pipeline of 43_frame.md as shared operations: the verify step (R176), the tokenize step (R181)
and the two in sequence with the emission (R183). Each answers the result code the pseudocode would finish with and the
state it leaves, so that FRM.PROCESS and SEQ.CYCLE can go on where a step would finish with OK. -/

namespace Sys2Proof.Machine

/-- The pseudocode of FRM.VERIFY (R176), less its `finish`. -/
def verifyStep (s : State) : ResCode × State :=
  if s.status.ovf then (.overflow, setVfy false s)
  else
    match verifyBytes s.lbuf with
    | .short => (.short, setVfy false s)
    | .valid c => (.ok, setVfy true (setCrc c s))
    | .mismatch c => (.crcMismatch, setVfy false (setCrc c s))

/-- The tokens of the field pieces, in order, appended to those stored (R180): a piece with no 0x3D is skipped; none
where a token finds P_NTOK_MAX tokens stored. -/
def storeTokens (max : Nat) : List Bytes → List Token → Option (List Token)
  | [], ts => some ts
  | p :: ps, ts =>
    match splitFirstEq p with
    | none => storeTokens max ps ts
    | some t => if ts.length = max then none else storeTokens max ps (ts ++ [t])

/-- The header registers and tokens of a split body (R178 to R181): on a full store the frame registers are cleared. -/
def storeFrame (pieces : List Bytes) (s : State) : ResCode × State :=
  let h := setHeader (pieces.headD []) s
  match storeTokens s.params.ntokMax pieces.tail [] with
  | none => (.overflow, clearFrame h)
  | some ts => (if h.status.mtype = .none then .unknownCode else .ok, setTok ts h)

/-- The pseudocode of FRM.TOKENIZE (R181), less its `finish`. -/
def tokenizeStep (s : State) : ResCode × State :=
  let u := clearFrame s
  if s.status.ovf then (.overflow, u)
  else if hasNonAscii (frameBody s.lbuf) then (.nonascii, u)
  else storeFrame (split 0x2C (frameBody s.lbuf)) u

/-- The tokenize step and, where it would finish with OK, the record's emission (R183). -/
def tokenizeEmit (s : State) : ResCode × State :=
  let r := tokenizeStep s
  if r.1 = .ok then (.ok, emitRecord r.2) else r

/-- The pseudocode of FRM.PROCESS (R183), less its `finish`. -/
def processStep (s : State) : ResCode × State :=
  let r := verifyStep (clearFrame s)
  if r.1 = .ok then tokenizeEmit r.2 else r

end Sys2Proof.Machine
end

