-- ==== Sys2Proof/Machine/Frame.lean ====
section
/-! DEFINITION. The frame family (43_frame.md R176, R181, R183). -/

namespace Sys2Proof.Machine

/-- FRM.VERIFY (R176). -/
def execFrmVerify (s : State) : Result :=
  ended (verifyStep s)

/-- FRM.TOKENIZE (R181). -/
def execFrmTokenize (s : State) : Result :=
  ended (tokenizeStep s)

/-- FRM.PROCESS (R183). -/
def execFrmProcess (s : State) : Result :=
  ended (processStep s)

end Sys2Proof.Machine
end

