-- ==== Sys2Proof/Machine/Guards.lean ====
section
/-! DEFINITION. The checks a command makes before it does anything (45_session.md R230, 60_exceptions.md R274): each
answers the result code of the first check that fails, in the order BAD_STATE, NOT_OPEN, NO_ADDR. -/

namespace Sys2Proof.Machine

/-- The checks of LINE.READ (42_line.md R154). -/
def readRefusal (s : State) : Option ResCode :=
  if s.sess ≠ .idle ∧ s.sess ≠ .sessionReady then some .badState
  else if s.status.opn = false then some .notOpen
  else none

/-- The checks of a command allowed only in IDLE with an open port: TX.PROBE, XPT.SETTLE, XPT.FLUSH
(44_wire.md R202, 45_session.md R233, R234). -/
def portRefusal (s : State) : Option ResCode :=
  if s.sess ≠ .idle then some .badState
  else if s.status.opn = false then some .notOpen
  else none

/-- The checks of TX.SETTINGS and TX.SETMODE (44_wire.md R202). -/
def txRefusal (s : State) : Option ResCode :=
  if s.sess ≠ .idle then some .badState
  else if s.status.opn = false then some .notOpen
  else if s.status.addrv = false then some .noAddr
  else none

/-- The check of a command allowed only in IDLE: RSP.ADDR, XPT.CLOSE, ADDR.SET (R230). -/
def idleRefusal (s : State) : Option ResCode :=
  if s.sess ≠ .idle then some .badState else none

/-- The check of a command allowed only in IDLE with no port open: XPT.OPEN, SEQ.PROBE, SEQ.DISCOVER
(45_session.md R230, R232, R238, R239). -/
def openRefusal (s : State) : Option ResCode :=
  if s.sess ≠ .idle then some .badState
  else if s.status.opn = true then some .badState
  else none

/-- The checks of SEQ.ESTABLISH (45_session.md R246). -/
def establishRefusal (s : State) : Option ResCode :=
  if s.sess ≠ .idle ∧ s.sess ≠ .found then some .badState
  else if s.status.opn = true then some .badState
  else if s.status.addrv = false then some .noAddr
  else none

/-- The check of SEQ.CYCLE (45_session.md R250). -/
def cycleRefusal (s : State) : Option ResCode :=
  if s.sess ≠ .sessionReady then some .badState else none

/-- A command whose check failed ends with that code and does nothing else; any other runs its body (R274). -/
def guarded (refusal : Option ResCode) (s : State) (body : ResCode × State) : ResCode × State :=
  match refusal with
  | some c => (c, s)
  | none => body

end Sys2Proof.Machine
end

