-- ==== Sys2Proof/Machine/Line.lean ====
section
/-! DEFINITION. The line buffer family (42_line.md R152 to R154). -/

namespace Sys2Proof.Machine

/-- LINE.CLR (R152). -/
def execLineClr (s : State) : Result :=
  finish .ok (lineFlags false (lineEmpty s))

/-- The line with one byte put, TERM and VFY cleared (R153). -/
def linePutState (b : Byte) (s : State) : State :=
  lineFlags false (lbufAppend b s)

/-- LINE.PUT b (R153): OVERFLOW while OVF = 1, which LINE.PUT never clears. -/
def execLinePut (b : Byte) (s : State) : Result :=
  let t := linePutState (dataByte b) s
  ended (if t.status.ovf then .overflow else .ok, t)

/-- The result code of a read line: EMPTY before OVERFLOW (R154, 60_exceptions.md R274). -/
def lineReadCode (l : Bytes) (t : State) : ResCode :=
  if l = [] then .empty else if t.status.ovf then .overflow else .ok

/-- LINE.READ (R154). -/
def execLineRead (s : State) : Result :=
  ended (guarded (readRefusal s) s (lineReadCode (nextLine s) (readIntoLine s), readIntoLine s))

end Sys2Proof.Machine
end

