-- ==== Sys2Proof/Machine/Discovery.lean ====
section
/-! DEFINITION. The sequencer's shared operations: the probe of one candidate (45_session.md R237), the search over a list
of candidates (R238, R239) and session establishment (R246, R247). -/

namespace Sys2Proof.Machine

/-- What `probe_candidate` returns (R237). -/
inductive ProbeOutcome where
  | found | openFailed | noAddressReply | noMatch
  deriving DecidableEq, Repr

/-- The result code SEQ.PROBE finishes with for an outcome (R238). -/
def ProbeOutcome.code : ProbeOutcome → ResCode
  | .found => .ok
  | .openFailed => .openFailed
  | .noAddressReply => .noAddressReply
  | .noMatch => .noMatch

/-- Settle, flush, send a first request and read its reply: what follows every successful open of the sequencer
(R237, R246). -/
def firstRequest (frame : Bytes) (s : State) : State :=
  readIntoLine (xptWrite frame (xptFlush (xptSettle s)))

/-- Flush, send the settings request to ADDR, read its reply and close (R237, step 3). -/
def askSettings (s : State) : State :=
  xptClose (readIntoLine (xptWrite (settingsFrame s.addr) (xptFlush s)))

/-- Steps 2 and 3 of R237 on an opened port: the probe request, and if its reply gives an address, the settings request. -/
def probeOpened (s : State) : ProbeOutcome × State :=
  let r := firstRequest probeFrame s
  if addressOk r.lbuf then
    let t := askSettings (setAddr (r.lbuf.headD 0) r)
    if identOk t.params.modelId t.lbuf then (.found, t) else (.noMatch, setAddrv false t)
  else (.noAddressReply, xptClose r)

/-- `probe_candidate(p, baud)` of R237: the transport is closed again in every outcome. -/
def probeCandidate (p baud : Nat) (s : State) : ProbeOutcome × State :=
  if nextOpen s then probeOpened (xptOpen p baud s) else (.openFailed, xptOpen p baud s)

/-- Probe candidates in order until one is found (R238, R239): `FPORT <- p; SESS <- FOUND` for that one; else the last
outcome, `o` where there is no candidate. -/
def probeAll : List (Nat × Nat) → ProbeOutcome → State → ProbeOutcome × State
  | [], o, s => (o, s)
  | c :: cs, _, s =>
    let r := probeCandidate c.1 c.2 s
    if r.1 = .found then (.found, setFound c.1 r.2) else probeAll cs r.1 r.2

/-- The candidates of SEQ.PROBE p: its port at every candidate baud rate, in order (R238). -/
def portCandidates (s : State) (p : Nat) : List (Nat × Nat) :=
  s.params.bauds.map fun b => (p, b)

/-- The candidates of SEQ.DISCOVER: every port in index order, each at every baud rate in order (R239). -/
def allCandidates (s : State) : List (Nat × Nat) :=
  (List.range s.params.nports).flatMap (portCandidates s)

/-- `SESS <- SCANNING; STATUS.ADDRV <- 0`: how a discovery starts (R238, R239). -/
def startScan (s : State) : State :=
  setAddrv false (setSess .scanning s)

/-- The body of SEQ.PROBE p behind its checks (R238). -/
def probePort (p : Nat) (s : State) : ResCode × State :=
  let r := probeAll (portCandidates s p) .openFailed (startScan s)
  (r.1.code, if r.1 = .found then r.2 else setSess .idle r.2)

/-- The body of SEQ.DISCOVER behind its checks (R239). -/
def discoverAll (s : State) : ResCode × State :=
  let r := probeAll (allCandidates s) .openFailed (startScan s)
  (if r.1 = .found then .ok else .notFound, if r.1 = .found then r.2 else setFatal .notFound r.2)

/-- SEQ.ESTABLISH on an opened port: the mode-set command and its acknowledgment (R246), and the success ending
(R247). -/
def establishOpened (s : State) : ResCode × State :=
  let r := firstRequest (setmodeFrame s.addr) s
  if ackOk r.lbuf then (.ok, setAuto true (setSess .sessionReady r))
  else (.setupFailed, setFatal .sessionFailed (xptClose r))

/-- SEQ.ESTABLISH p with a legal port: the open and what follows it (R246). -/
def establishPort (p : Nat) (s : State) : ResCode × State :=
  if nextOpen s then establishOpened (xptOpen p sessionBaud s)
  else (.openFailed, setFatal .sessionFailed (xptOpen p sessionBaud s))

/-- The body of SEQ.ESTABLISH p behind its checks (R246). -/
def establishSession (p : Nat) (s : State) : ResCode × State :=
  let u := setSess .establishing s
  if portLegal s p then establishPort p u else (.openFailed, setFatal .sessionFailed u)

end Sys2Proof.Machine
end

