-- ==== Sys2Proof/Machine/Session.lean ====
section
/-! DEFINITION. The transport and session family (45_session.md R232 to R236, R238, R239, R246, R250, R252). -/

namespace Sys2Proof.Machine

/-- XPT.OPEN on a legal port (R232). -/
def openManual (p : Nat) (s : State) : ResCode × State :=
  (if nextOpen s then .ok else .openFailed, xptOpen p sessionBaud s)

/-- XPT.OPEN p (R232). -/
def execXptOpen (p : Byte) (s : State) : Result :=
  ended (guarded (openRefusal s) s
    (if portLegal s (portIndex p) then openManual (portIndex p) s else (.openFailed, s)))

/-- XPT.SETTLE (R233). -/
def execXptSettle (s : State) : Result :=
  ended (guarded (portRefusal s) s (.ok, xptSettle s))

/-- XPT.FLUSH (R234). -/
def execXptFlush (s : State) : Result :=
  ended (guarded (portRefusal s) s (.ok, xptFlush s))

/-- Close the port if one is open: closing is idempotent and records no event when none is (R235, R252). -/
def closeIfOpen (s : State) : State :=
  if s.status.opn then xptClose s else s

/-- XPT.CLOSE (R235). -/
def execXptClose (s : State) : Result :=
  ended (guarded (idleRefusal s) s (.ok, closeIfOpen s))

/-- ADDR.SET a (R236). -/
def execAddrSet (a : Byte) (s : State) : Result :=
  ended (guarded (idleRefusal s) s (.ok, setAddr (addrByte a) s))

/-- SEQ.PROBE p (R238). -/
def execSeqProbe (p : Byte) (s : State) : Result :=
  ended (guarded (openRefusal s) s
    (if portLegal s (portIndex p) then probePort (portIndex p) s else (.openFailed, s)))

/-- SEQ.DISCOVER (R239). -/
def execSeqDiscover (s : State) : Result :=
  ended (guarded (openRefusal s) s (discoverAll s))

/-- SEQ.ESTABLISH p (R246, R247). -/
def execSeqEstablish (p : Byte) (s : State) : Result :=
  ended (guarded (establishRefusal s) s (establishSession (portIndex p) s))

/-- The body of SEQ.CYCLE behind its check (R250). -/
def cycleStep (s : State) : ResCode × State :=
  if nextLine s = [] then (.empty, clearFrame (readIntoLine s)) else processStep (readIntoLine s)

/-- SEQ.CYCLE (R250). -/
def execSeqCycle (s : State) : Result :=
  ended (guarded (cycleRefusal s) s (cycleStep s))

/-- `if SESS in {IDLE, FOUND, SESSION_READY} then SESS <- IDLE` (R252). -/
def shutdownSess : Sess → Sess
  | .idle | .found | .sessionReady => .idle
  | .scanning => .scanning
  | .notFound => .notFound
  | .establishing => .establishing
  | .sessionFailed => .sessionFailed

/-- SEQ.SHUTDOWN (R252). -/
def execSeqShutdown (s : State) : Result :=
  let t := setAuto false (closeIfOpen s)
  finish .ok (setSess (shutdownSess t.sess) t)

end Sys2Proof.Machine
end

