-- ==== Sys2Proof/Machine/Wire.lean ====
section
/-! DEFINITION. The wire command and reply family (44_wire.md R203 to R205, R209 to R211). -/

namespace Sys2Proof.Machine

/-- TX.PROBE (R203). -/
def execTxProbe (s : State) : Result :=
  ended (guarded (portRefusal s) s (.ok, xptWrite probeFrame s))

/-- TX.SETTINGS (R204). -/
def execTxSettings (s : State) : Result :=
  ended (guarded (txRefusal s) s (.ok, xptWrite (settingsFrame s.addr) s))

/-- TX.SETMODE (R205): AUTO is not set here. -/
def execTxSetmode (s : State) : Result :=
  ended (guarded (txRefusal s) s (.ok, xptWrite (setmodeFrame s.addr) s))

/-- The address test of RSP.ADDR behind its check (R209). -/
def takeAddress (s : State) : ResCode × State :=
  if addressOk s.lbuf then (.ok, setAddr (s.lbuf.headD 0) s) else (.noAddressReply, s)

/-- RSP.ADDR (R209). -/
def execRspAddr (s : State) : Result :=
  ended (guarded (idleRefusal s) s (takeAddress s))

/-- RSP.IDENT (R210). -/
def execRspIdent (s : State) : Result :=
  ended (if identOk s.params.modelId s.lbuf then .ok else .noMatch, s)

/-- RSP.ACK (R211). -/
def execRspAck (s : State) : Result :=
  ended (if ackOk s.lbuf then .ok else .noMatch, s)

end Sys2Proof.Machine
end

