-- ==== Sys2Proof/Syntax.lean ====
section
/-! DEFINITION. The WFE-1 command set, one constructor per row of spec/opcode_table.json (30_encoding.md R92). The only
operand is the byte IMM8 (R93). -/

namespace Sys2Proof

/-- A command of 30_encoding.md R92. -/
inductive Instr where
  /-- CRC.CLR -/
  | crcClr
  /-- CRC.BYTE b -/
  | crcByte (b : Byte)
  /-- CRC.PACK -/
  | crcPack
  /-- LINE.CLR -/
  | lineClr
  /-- LINE.PUT b -/
  | linePut (b : Byte)
  /-- LINE.READ -/
  | lineRead
  /-- FRM.VERIFY -/
  | frmVerify
  /-- FRM.TOKENIZE -/
  | frmTokenize
  /-- FRM.PROCESS -/
  | frmProcess
  /-- TX.PROBE -/
  | txProbe
  /-- TX.SETTINGS -/
  | txSettings
  /-- TX.SETMODE -/
  | txSetmode
  /-- RSP.ADDR -/
  | rspAddr
  /-- RSP.IDENT -/
  | rspIdent
  /-- RSP.ACK -/
  | rspAck
  /-- XPT.OPEN p -/
  | xptOpen (p : Byte)
  /-- XPT.SETTLE -/
  | xptSettle
  /-- XPT.FLUSH -/
  | xptFlush
  /-- XPT.CLOSE -/
  | xptClose
  /-- ADDR.SET a -/
  | addrSet (a : Byte)
  /-- SEQ.PROBE p -/
  | seqProbe (p : Byte)
  /-- SEQ.DISCOVER -/
  | seqDiscover
  /-- SEQ.ESTABLISH p -/
  | seqEstablish (p : Byte)
  /-- SEQ.CYCLE -/
  | seqCycle
  /-- SEQ.SHUTDOWN -/
  | seqShutdown
  deriving DecidableEq, Repr

end Sys2Proof
end

