-- ==== Sys2Proof/Machine/Dispatch.lean ====
section
/-! DEFINITION. One command's meaning, by its constructor. -/

namespace Sys2Proof.Machine

def exec (i : Instr) (s : State) : Host.Outcome State Fault Refusal :=
  match i with
  | .crcClr => Sys2Proof.Machine.execCrcClr s
  | .crcByte b => Sys2Proof.Machine.execCrcByte b s
  | .crcPack => Sys2Proof.Machine.execCrcPack s
  | .lineClr => Sys2Proof.Machine.execLineClr s
  | .linePut b => Sys2Proof.Machine.execLinePut b s
  | .lineRead => Sys2Proof.Machine.execLineRead s
  | .frmVerify => Sys2Proof.Machine.execFrmVerify s
  | .frmTokenize => Sys2Proof.Machine.execFrmTokenize s
  | .frmProcess => Sys2Proof.Machine.execFrmProcess s
  | .txProbe => Sys2Proof.Machine.execTxProbe s
  | .txSettings => Sys2Proof.Machine.execTxSettings s
  | .txSetmode => Sys2Proof.Machine.execTxSetmode s
  | .rspAddr => Sys2Proof.Machine.execRspAddr s
  | .rspIdent => Sys2Proof.Machine.execRspIdent s
  | .rspAck => Sys2Proof.Machine.execRspAck s
  | .xptOpen p => Sys2Proof.Machine.execXptOpen p s
  | .xptSettle => Sys2Proof.Machine.execXptSettle s
  | .xptFlush => Sys2Proof.Machine.execXptFlush s
  | .xptClose => Sys2Proof.Machine.execXptClose s
  | .addrSet a => Sys2Proof.Machine.execAddrSet a s
  | .seqProbe p => Sys2Proof.Machine.execSeqProbe p s
  | .seqDiscover => Sys2Proof.Machine.execSeqDiscover s
  | .seqEstablish p => Sys2Proof.Machine.execSeqEstablish p s
  | .seqCycle => Sys2Proof.Machine.execSeqCycle s
  | .seqShutdown => Sys2Proof.Machine.execSeqShutdown s

end Sys2Proof.Machine
end

