-- ==== Sys2Proof/WellFormed.lean ====
section
/-! DEFINITION. The well-formedness checks: of a command word (30_encoding.md R94, R95), of the parameters
(00_scope.md R9) and of a line a readline may return (20_memory.md R69). A command itself has only an IMM8 byte as its
operand, and every byte is a legal operand (R93); `Instr.wellFormed` in Decode.lean says so through its word. -/

namespace Sys2Proof

/-- The opcode is unassigned: the ranges of 30_encoding.md R95, written from that list and not from the opcode map. -/
def opUnassigned (op : Byte) : Bool :=
  let n := op.toNat
  n ≤ 0x0F || (0x13 ≤ n && n ≤ 0x1F) || (0x23 ≤ n && n ≤ 0x2F) || (0x33 ≤ n && n ≤ 0x3F) ||
    (0x43 ≤ n && n ≤ 0x47) || (0x4B ≤ n && n ≤ 0x4F) || (0x54 ≤ n && n ≤ 0x57) || (0x59 ≤ n && n ≤ 0x5F) || 0x65 ≤ n

/-- The opcodes whose command takes an operand (30_encoding.md R93): CRC.BYTE, LINE.PUT, ADDR.SET, XPT.OPEN, SEQ.PROBE
and SEQ.ESTABLISH. -/
def opTakesOperand (op : Byte) : Bool :=
  op == 0x11 || op == 0x21 || op == 0x58 || op == 0x50 || op == 0x60 || op == 0x62

/-- A command word is legal: its opcode is assigned (R95), and IMM8 is 0x00 where the command takes no operand (R94). -/
def wordOk (w : Word) : Bool :=
  let op := w.extractLsb' 8 8
  let imm := w.extractLsb' 0 8
  !opUnassigned op && (opTakesOperand op || imm == 0)

/-- The constraints 00_scope.md R9 puts on the parameters. -/
def Params.wf (p : Params) : Bool :=
  3 ≤ p.lbufMax && p.lbufMax ≤ 65535 && p.ntokMax ≤ 65535 && p.nports ≤ 256 && p.modelId != []

/-- A line a readline may return: 0x0A occurs at most once, and if it occurs it is the last byte (20_memory.md R69). -/
def lineLegal (s : Bytes) : Bool :=
  !s.dropLast.contains 0x0A

end Sys2Proof
end

