-- ==== Sys2Proof/Decode.lean ====
section
/-! DEFINITION. The decoder of command words, total and rejecting by name, and the encoder (30_encoding.md R90 to R97);
the two-byte delivery of a word (20_memory.md R65); the host's reading of a table word. -/

namespace Sys2Proof

/-- Why a word is no command. Both end in `finish(ILLEGAL)` (60_exceptions.md R273). -/
inductive DecodeError where
  /-- OP is not in the opcode map (30_encoding.md R95). -/
  | unassignedOpcode (op : Byte)
  /-- The command takes no operand and IMM8 is not 0x00 (30_encoding.md R94). -/
  | operandNotZero (op imm : Byte)
  deriving DecidableEq, Repr

/-- A word's decoding: a command, or the reason it is illegal. -/
inductive Decoded where
  | command (i : Instr)
  | illegal (e : DecodeError)
  deriving DecidableEq, Repr

/-- The command a decoding gives, if any. -/
def Decoded.instr? : Decoded → Option Instr
  | .command i => some i
  | .illegal _ => none

/-- Field OP, bits [15:8] (R90). -/
def fieldOp (w : Word) : Byte := w.extractLsb' 8 8

/-- Field IMM8, bits [7:0] (R90). -/
def fieldImm (w : Word) : Byte := w.extractLsb' 0 8

/-- A command that takes no operand: IMM8 must be 0x00 (R94). -/
def bare (i : Instr) (op imm : Byte) : Decoded :=
  if imm = 0 then .command i else .illegal (.operandNotZero op imm)

/-- The opcode map of 30_encoding.md R92. The decoding reads the word's two fields and nothing else (R97). -/
def decodeFields (op imm : Byte) : Decoded :=
  match op with
  | 0x10#8 => bare .crcClr op imm
  | 0x11#8 => .command (.crcByte imm)
  | 0x12#8 => bare .crcPack op imm
  | 0x20#8 => bare .lineClr op imm
  | 0x21#8 => .command (.linePut imm)
  | 0x22#8 => bare .lineRead op imm
  | 0x30#8 => bare .frmVerify op imm
  | 0x31#8 => bare .frmTokenize op imm
  | 0x32#8 => bare .frmProcess op imm
  | 0x40#8 => bare .txProbe op imm
  | 0x41#8 => bare .txSettings op imm
  | 0x42#8 => bare .txSetmode op imm
  | 0x48#8 => bare .rspAddr op imm
  | 0x49#8 => bare .rspIdent op imm
  | 0x4A#8 => bare .rspAck op imm
  | 0x50#8 => .command (.xptOpen imm)
  | 0x51#8 => bare .xptSettle op imm
  | 0x52#8 => bare .xptFlush op imm
  | 0x53#8 => bare .xptClose op imm
  | 0x58#8 => .command (.addrSet imm)
  | 0x60#8 => .command (.seqProbe imm)
  | 0x61#8 => bare .seqDiscover op imm
  | 0x62#8 => .command (.seqEstablish imm)
  | 0x63#8 => bare .seqCycle op imm
  | 0x64#8 => bare .seqShutdown op imm
  | _ => .illegal (.unassignedOpcode op)

/-- Decode one command word (R90, R92, R94, R95). Total: every word is one command or illegal. -/
def decode (w : Word) : Decoded :=
  decodeFields (fieldOp w) (fieldImm w)

/-- The word of two bytes delivered one after the other: the first is the opcode, bits [15:8] (20_memory.md R65). -/
def wordOfBytes (first second : Byte) : Word := first ++ second

/-- The two bytes of a word in the order the host delivers them (20_memory.md R65). -/
def bytesOfWord (w : Word) : Bytes := [fieldOp w, fieldImm w]

/-- Decode the first command of a byte sequence delivered on the command port, with the bytes left after it; a lone
byte is no word (20_memory.md R65: the port has no partial words). -/
def decodeBytes : Bytes → Option (Decoded × Bytes)
  | first :: second :: rest => some (decode (wordOfBytes first second), rest)
  | _ => none

/-- The opcode of a command (R92). -/
def opcode : Instr → Byte
  | .crcClr => 0x10
  | .crcByte _ => 0x11
  | .crcPack => 0x12
  | .lineClr => 0x20
  | .linePut _ => 0x21
  | .lineRead => 0x22
  | .frmVerify => 0x30
  | .frmTokenize => 0x31
  | .frmProcess => 0x32
  | .txProbe => 0x40
  | .txSettings => 0x41
  | .txSetmode => 0x42
  | .rspAddr => 0x48
  | .rspIdent => 0x49
  | .rspAck => 0x4A
  | .xptOpen _ => 0x50
  | .xptSettle => 0x51
  | .xptFlush => 0x52
  | .xptClose => 0x53
  | .addrSet _ => 0x58
  | .seqProbe _ => 0x60
  | .seqDiscover => 0x61
  | .seqEstablish _ => 0x62
  | .seqCycle => 0x63
  | .seqShutdown => 0x64

/-- The operand byte of a command, 0x00 for one that takes none (R92, R94). -/
def operand : Instr → Byte
  | .crcByte b => b
  | .linePut b => b
  | .xptOpen p => p
  | .addrSet a => a
  | .seqProbe p => p
  | .seqEstablish p => p
  | .crcClr | .crcPack | .lineClr | .lineRead | .frmVerify | .frmTokenize | .frmProcess => 0
  | .txProbe | .txSettings | .txSetmode | .rspAddr | .rspIdent | .rspAck => 0
  | .xptSettle | .xptFlush | .xptClose | .seqDiscover | .seqCycle | .seqShutdown => 0

/-- The word of a command: `OP << 8 | operand` (30_encoding.md R90, R98). -/
def encode (i : Instr) : Word := opcode i ++ operand i

/-- A command is well formed when its word is legal (R94, R95). Every command is: IMM8 is a byte by its type. -/
def Instr.wellFormed (i : Instr) : Bool := wordOk (encode i)

/-- The host's reading of a table word: w's bits below `nbits`, delivered opcode byte first, through `decodeBytes`. -/
def decodeTableWord (nbits w : Nat) : Option Instr :=
  match decodeBytes (bytesOfWord (BitVec.ofNat 16 (w % 2 ^ nbits))) with
  | some (d, _) => d.instr?
  | none => none

end Sys2Proof
end

