-- ==== Sys2Proof/Machine/Fetch.lean ====
section
/-! DEFINITION. How the block takes its next input (30_encoding.md R91, 70_reset_and_hazards.md R300): the command port's
handshake, the word's one decoding at acceptance (R91), and what an illegal word does (60_exceptions.md R273). -/

namespace Sys2Proof.Machine

/-- What the next input asks of the block. -/
inductive Fetched where
  /-- Nothing runs; the state is as given. -/
  | rest (s : State)
  /-- A command was accepted and is to run in this state. -/
  | run (i : Instr) (s : State)
  deriving DecidableEq, Repr

/-- The state in which the command word of the first host input is accepted: the input is taken and BUSY is set (R91). -/
def takeInput (s : State) : State :=
  accept { s with host := s.host.tail }

/-- A word is presented: while BUSY = 1 it keeps being presented (R91, U21, log 7); else it is accepted and decoded once; an
illegal word is `finish(ILLEGAL)` (R273). -/
def present (w : Word) (s : State) : Fetched :=
  if s.status.busy then .rest s
  else
    match decode w with
    | .command i => .run i (takeInput s)
    | .illegal _ => .rest (finished .illegal (takeInput s))

/-- The next input of the host. With none the block is idle and keeps all its state (60_exceptions.md R287); a reset acts
whatever the block does (R300). -/
def fetch (s : State) : Fetched :=
  match s.host with
  | [] => .rest s
  | .word w :: _ => present w s
  | .wordBytes first second :: _ => present (wordOfBytes first second) s
  | .reset after :: rest => .rest (resetBlock after { s with host := rest })

/-- A command word placed as the host's next input, at a port that can accept it. -/
def presentWord (w : Word) (s : State) : State :=
  { s with host := .word w :: s.host, status := { s.status with busy := false } }

end Sys2Proof.Machine
end

