-- ==== Sys2Proof/Machine/Step.lean ====
section
/-! DEFINITION. One step: the host's next input is taken, and if it is a command, the command runs to its `finish`
(20_memory.md R74: a command is atomic). -/

namespace Sys2Proof.Machine

/-- One step of the block. -/
def step (s : State) : Host.Outcome State Fault Refusal :=
  match fetch s with
  | .rest t => .next t
  | .run i t => exec i t

/-- The table word w (its bits below `nbits`) as the host's next input. Only the host issues words, so this is where a
step fetches (log 3); BUSY = 0 because a word is accepted only then (30_encoding.md R91). -/
def State.withFetchWord (s : State) (nbits w : Nat) : State :=
  presentWord (BitVec.ofNat 16 (w % 2 ^ nbits)) s

end Sys2Proof.Machine
end

