-- ==== Sys2Proof/Machine/Pseudo.lean ====
section
/-! DEFINITION. The pseudo-instructions of 30_encoding.md R99, each by its expansion. They have no words of their own. -/

namespace Sys2Proof.Machine

/-- `CRC.STR "s"` (R99). -/
def crcStr (s : Bytes) : List Instr := s.map .crcByte

/-- `CRC.COMPUTE "s"` (R99): the source's `compute(payload)` (41_crc.md R127). -/
def crcCompute (s : Bytes) : List Instr := .crcClr :: (crcStr s ++ [.crcPack])

/-- `LINE.STR "s"` (R99). -/
def lineStr (s : Bytes) : List Instr := s.map .linePut

/-- `LINE.LOAD "s"` (R99). -/
def lineLoadStr (s : Bytes) : List Instr := .lineClr :: lineStr s

end Sys2Proof.Machine
end

