-- ==== Sys2Proof/Machine/Assembler.lean ====
section
/-! DEFINITION. The assembler syntax of 30_encoding.md R98, with the pseudo-instructions and strings of R99: one line of
text to the commands it stands for. It is a tool of the host; the machine does not use it. What R98 and R99 leave open of
its text: log 10, DESIGN CHOICE. -/

namespace Sys2Proof.Machine

/-- A command that takes no operand, by its mnemonic (R92, R98). -/
def bareNamed : String → Option Instr
  | "CRC.CLR" => some .crcClr
  | "CRC.PACK" => some .crcPack
  | "LINE.CLR" => some .lineClr
  | "LINE.READ" => some .lineRead
  | "FRM.VERIFY" => some .frmVerify
  | "FRM.TOKENIZE" => some .frmTokenize
  | "FRM.PROCESS" => some .frmProcess
  | "TX.PROBE" => some .txProbe
  | "TX.SETTINGS" => some .txSettings
  | "TX.SETMODE" => some .txSetmode
  | "RSP.ADDR" => some .rspAddr
  | "RSP.IDENT" => some .rspIdent
  | "RSP.ACK" => some .rspAck
  | "XPT.SETTLE" => some .xptSettle
  | "XPT.FLUSH" => some .xptFlush
  | "XPT.CLOSE" => some .xptClose
  | "SEQ.DISCOVER" => some .seqDiscover
  | "SEQ.CYCLE" => some .seqCycle
  | "SEQ.SHUTDOWN" => some .seqShutdown
  | _ => none

/-- A command that takes an operand, by its mnemonic and operand (R92, R98). -/
def operandNamed (b : Byte) : String → Option Instr
  | "CRC.BYTE" => some (.crcByte b)
  | "LINE.PUT" => some (.linePut b)
  | "XPT.OPEN" => some (.xptOpen b)
  | "ADDR.SET" => some (.addrSet b)
  | "SEQ.PROBE" => some (.seqProbe b)
  | "SEQ.ESTABLISH" => some (.seqEstablish b)
  | _ => none

/-- A pseudo-instruction, by its name and string (R99). -/
def pseudoNamed (s : Bytes) : String → Option (List Instr)
  | "CRC.STR" => some (crcStr s)
  | "CRC.COMPUTE" => some (crcCompute s)
  | "LINE.STR" => some (lineStr s)
  | "LINE.LOAD" => some (lineLoadStr s)
  | _ => none

/-- The value of a hexadecimal digit. -/
def hexDigit (c : Char) : Option Nat :=
  let n := c.toNat
  if 0x30 ≤ n ∧ n ≤ 0x39 then some (n - 0x30)
  else if 0x41 ≤ n ∧ n ≤ 0x46 then some (n - 0x41 + 10)
  else if 0x61 ≤ n ∧ n ≤ 0x66 then some (n - 0x61 + 10)
  else none

/-- The value of a decimal digit. -/
def decDigit (c : Char) : Option Nat :=
  let n := c.toNat
  if 0x30 ≤ n ∧ n ≤ 0x39 then some (n - 0x30) else none

/-- Digits read on while they last: the value so far, and the rest. -/
def readDigits (digit : Char → Option Nat) (base : Nat) : Nat → List Char → Nat × List Char
  | v, [] => (v, [])
  | v, c :: cs =>
    match digit c with
    | some d => readDigits digit base (v * base + d) cs
    | none => (v, c :: cs)

/-- A number in the range 0 to 255 as its byte (R98). -/
def byteOfNat (n : Nat) : Option Byte := if n < 256 then some (BitVec.ofNat 8 n) else none

/-- A character's ASCII code as its byte (R98). -/
def byteOfChar (c : Char) : Option Byte := if c.toNat < 128 then some (BitVec.ofNat 8 c.toNat) else none

/-- A number that starts with one digit at least, and what follows it (R98). -/
def readNumber (digit : Char → Option Nat) (base : Nat) : List Char → Option (Byte × List Char)
  | [] => none
  | c :: cs =>
    match digit c with
    | none => none
    | some d => (byteOfNat (readDigits digit base d cs).1).map fun b => (b, (readDigits digit base d cs).2)

/-- An operand and what follows it (R98): a character literal, a hexadecimal or a decimal number. R98 says that a `;` starts
a comment and states no exception; that a `;` between the quotes of a literal is the byte 0x3B is a DESIGN CHOICE
(log 10). -/
def readOperand : List Char → Option (Byte × List Char)
  | '\'' :: '\\' :: 'r' :: '\'' :: cs => some (0x0D, cs)
  | '\'' :: '\\' :: 'n' :: '\'' :: cs => some (0x0A, cs)
  | '\'' :: c :: '\'' :: cs => (byteOfChar c).map fun b => (b, cs)
  | '0' :: 'x' :: cs => readNumber hexDigit 16 cs
  | cs => readNumber decDigit 10 cs

/-- The rest of a string behind its opening quote, and what follows its closing one, with the escapes of R99. That a `;` in
a string is the byte 0x3B and starts no comment is a DESIGN CHOICE (log 10). -/
def readString : List Char → Option (Bytes × List Char)
  | [] => none
  | '"' :: cs => some ([], cs)
  | '\\' :: 'r' :: cs => (readString cs).map fun r => (0x0D :: r.1, r.2)
  | '\\' :: 'n' :: cs => (readString cs).map fun r => (0x0A :: r.1, r.2)
  | '\\' :: '\\' :: cs => (readString cs).map fun r => (0x5C :: r.1, r.2)
  | '\\' :: '"' :: cs => (readString cs).map fun r => (0x22 :: r.1, r.2)
  | '\\' :: 'x' :: h :: l :: cs =>
    match hexDigit h, hexDigit l, readString cs with
    | some a, some b, some r => some (BitVec.ofNat 8 (a * 16 + b) :: r.1, r.2)
    | _, _, _ => none
  | '\\' :: _ => none
  | c :: cs =>
    match byteOfChar c, readString cs with
    | some b, some r => some (b :: r.1, r.2)
    | _, _ => none

/-- Blanks dropped. -/
def skipBlanks (cs : List Char) : List Char := cs.dropWhile fun c => c == ' ' || c == '\t'

/-- Nothing but blanks and a comment is left (R98: a `;` starts a comment). -/
def lineEnds (cs : List Char) : Bool :=
  match skipBlanks cs with
  | [] => true
  | c :: _ => c == ';'

/-- The commands of a mnemonic and the text behind it (R98, R99). -/
def assembleRest (m : String) : List Char → Option (List Instr)
  | '"' :: cs =>
    match readString cs with
    | some (s, rest) => if lineEnds rest then pseudoNamed s m else none
    | none => none
  | cs =>
    if lineEnds cs then (bareNamed m).map fun i => [i]
    else
      match readOperand cs with
      | some (b, rest) => if lineEnds rest then (operandNamed b m).map fun i => [i] else none
      | none => none

/-- The commands of one line of assembler text; none where it is no line of R98 or R99. A line with only a comment
stands for no command. -/
def assemble (line : String) : Option (List Instr) :=
  let cs := skipBlanks line.toList
  if lineEnds cs then some []
  else
    let m := cs.takeWhile fun c => !(c == ' ' || c == '\t' || c == ';')
    assembleRest (String.ofList m) (skipBlanks (cs.drop m.length))

end Sys2Proof.Machine
end

