-- ==== Sys2Proof/Machine/HostView.lean ====
section
/-! DEFINITION. What the host and the record's consumer see and do: register, line and token reads (10_state.md R22), the
registers as they read while a command runs (20_memory.md R74, 70_reset_and_hazards.md R312), lookup by label in a record
(43_frame.md R184), and a sequence of command words issued one after the other (30_encoding.md R90). -/

namespace Sys2Proof.Machine

/-- Register n as the host reads it (10_state.md R20, R22); the reserved numbers read as 0. -/
def rdReg (n : Byte) (s : State) : Word :=
  match n.toNat with
  | 0x00 => s.status.word
  | 0x01 => s.sess.code.setWidth 16
  | 0x02 => s.acc
  | 0x03 => s.chk0.setWidth 16
  | 0x04 => s.chk1.setWidth 16
  | 0x05 => s.chk2.setWidth 16
  | 0x06 => s.addr.setWidth 16
  | 0x07 => s.port.setWidth 16
  | 0x08 => s.fport.setWidth 16
  | 0x09 => BitVec.ofNat 16 s.lbuf.length
  | 0x0A => s.haddr.setWidth 16
  | 0x0B => s.hcode0.setWidth 16
  | 0x0C => s.hcode1.setWidth 16
  | 0x0D => s.hlen
  | 0x0E => BitVec.ofNat 16 s.tok.length
  | _ => 0

/-- `rd_lbuf(i)` (R22): 0x00 at and above LLEN. -/
def rdLbuf (i : Nat) (s : State) : Byte := s.lbuf.getD i 0x00

/-- `rd_tok(k)` (R22): two empty sequences at and above NTOK. -/
def rdTok (k : Nat) (s : State) : Token := s.tok.getD k { label := [], value := [] }

/-- The SESS state a host may see while a command runs (10_state.md R35): SCANNING in a discovery, ESTABLISHING in a
session establishment, once its checks are passed. -/
def transientSess (i : Instr) (s : State) : Option Sess :=
  match i with
  | .seqProbe p => if openRefusal s = none ∧ portLegal s (portIndex p) = true then some .scanning else none
  | .seqDiscover => if openRefusal s = none then some .scanning else none
  | .seqEstablish _ => if establishRefusal s = none then some .establishing else none
  | .crcClr | .crcByte _ | .crcPack | .lineClr | .linePut _ | .lineRead => none
  | .frmVerify | .frmTokenize | .frmProcess | .txProbe | .txSettings | .txSetmode => none
  | .rspAddr | .rspIdent | .rspAck | .xptOpen _ | .xptSettle | .xptFlush | .xptClose => none
  | .addrSet _ | .seqCycle | .seqShutdown => none

/-- The states a host read may meet while command i, issued in state s, runs (BUSY = 1): of the running command's writes
only BUSY and SESS are seen before its `finish` (20_memory.md R74, 70_reset_and_hazards.md R312; log 4). -/
def busyViews (i : Instr) (s : State) : List State :=
  accept s :: ((transientSess i s).toList.map fun q => setSess q (accept s))

/-- The value of the last token with this label, none where there is none: "last one wins" (R184). -/
def Record.lookup (r : Record) (label : Bytes) : Option Bytes :=
  (r.tokens.reverse.find? fun t => t.label == label).map Token.value

/-- The host issues the words of these commands next, in order (30_encoding.md R90). -/
def issue (is : List Instr) (s : State) : State :=
  { s with host := (is.map fun i => .word (encode i)) ++ s.host }

end Sys2Proof.Machine
end

