-- ==== Sys2Proof/Machine/System.lean ====
section
/-! DEFINITION. Several instances of the block side by side (60_exceptions.md R285): each has all its own state, its own
transport and its own H, and one of them moves at a time. -/

namespace Sys2Proof.Machine

/-- Instance k of a system makes one step; none where there is no such instance. -/
def stepInstance (k : Nat) (sys : List State) : Option (List State) :=
  match sys[k]? with
  | none => none
  | some s =>
    match step s with
    | .next t => some (sys.set k t)
    | .fault _ => none
    | .refused _ => none

end Sys2Proof.Machine
end

