-- ==== Sys2Proof/Safety.lean ====
section
/-! DEFINITION. What the spec says of every state between commands and of every command as a whole: the state table
(45_session.md R230), the invariants (R231 and the state rules of 10_state.md), the well-formed I/O history, the classes of
result codes (60_exceptions.md R272) and the event bounds (70_reset_and_hazards.md R313). The claims are stated in these
terms; the machine does not use them. -/

namespace Sys2Proof.Machine

/-! ## The state table -/

/-- The commands that are allowed in every state because they are pure (R230), with FRM.PROCESS, whose one outside effect
is the record's emission (20_memory.md R75). -/
def localCommand : Instr → Bool
  | .crcClr | .crcByte _ | .crcPack | .lineClr | .linePut _ | .frmVerify | .frmTokenize | .frmProcess => true
  | .rspIdent | .rspAck => true
  | .lineRead | .txProbe | .txSettings | .txSetmode | .rspAddr | .xptOpen _ | .xptSettle | .xptFlush => false
  | .xptClose | .addrSet _ | .seqProbe _ | .seqDiscover | .seqEstablish _ | .seqCycle | .seqShutdown => false

/-- The table of 45_session.md R230: is the command allowed in SESS state q, with STATUS.OPEN = opn? SCANNING and
ESTABLISHING have no column there; they have the answer of the pseudocode here. -/
def allowed (i : Instr) (q : Sess) (opn : Bool) : Bool :=
  match i with
  | .crcClr | .crcByte _ | .crcPack | .lineClr | .linePut _ | .frmVerify | .frmTokenize | .frmProcess => true
  | .rspIdent | .rspAck | .seqShutdown => true
  | .lineRead => q == .idle || q == .sessionReady
  | .txProbe | .txSettings | .txSetmode | .rspAddr | .xptOpen _ | .xptSettle | .xptFlush | .xptClose => q == .idle
  | .addrSet _ => q == .idle
  | .seqProbe _ | .seqDiscover => q == .idle && !opn
  | .seqEstablish _ => (q == .idle && !opn) || q == .found
  | .seqCycle => q == .sessionReady

/-! ## Invariants -/

/-- The invariants (a) to (e) of 45_session.md R231, with BUSY = 0 and no transient SESS between commands (R33, R35). -/
structure SessionInv (s : State) : Prop where
  notBusy : s.status.busy = false
  steady : s.sess ≠ .scanning ∧ s.sess ≠ .establishing
  auto : s.status.auto = true ↔ s.sess = .sessionReady
  ready : s.sess = .sessionReady → s.status.opn = true ∧ s.status.addrv = true
  opened : s.status.opn = true → s.sess = .sessionReady ∨ s.sess = .idle
  fatal : s.status.fatal = true ↔ s.sess = .notFound ∨ s.sess = .sessionFailed
  closed : s.sess = .notFound ∨ s.sess = .sessionFailed → s.status.opn = false

/-- The two stores keep their capacities (10_state.md R41, R43): LLEN <= P_LBUF_MAX, NTOK <= P_NTOK_MAX, and every label
and value fits a line. -/
abbrev Memory.wf (s : State) : Prop :=
  s.lbuf.length ≤ s.params.lbufMax ∧ s.tok.length ≤ s.params.ntokMax ∧
    ∀ t ∈ s.tok, t.label.length ≤ s.params.lbufMax ∧ t.value.length ≤ s.params.lbufMax

/-- A verdict is VALID (43_frame.md R172). -/
def Verdict.isValid : Verdict → Bool
  | .valid _ => true
  | .short => false
  | .mismatch _ => false

/-- VFY = 1 describes the line now in LBUF (10_state.md R25, R31): it was not truncated and its checksum is right. -/
abbrev VerifiedInv (s : State) : Prop :=
  s.status.vfy = true → s.status.ovf = false ∧ (verifyBytes s.lbuf).isValid = true

/-- MTYPE and the header registers agree (43_frame.md R179): a recognised type only with a 3-byte header whose code bytes
select it. -/
abbrev HeaderInv (s : State) : Prop :=
  s.status.mtype ≠ .none → s.hlen = 3#16 ∧ classify [s.hcode0, s.hcode1] = s.status.mtype

/-- CHK0 to CHK2 hold a packed checksum (10_state.md R37): 0x40 to 0x7F each, CHK0 at most 0x4F. -/
abbrev ChkInv (s : State) : Prop :=
  (0x40 ≤ s.chk0.toNat ∧ s.chk0.toNat ≤ 0x4F) ∧ (0x40 ≤ s.chk1.toNat ∧ s.chk1.toNat ≤ 0x7F) ∧
    (0x40 ≤ s.chk2.toNat ∧ s.chk2.toNat ≤ 0x7F)

/-- While a port is open, PORT names one of the candidate ports (10_state.md R26, R39). -/
abbrev PortInv (s : State) : Prop :=
  s.status.opn = true → s.port.toNat < s.params.nports

/-- The transport's open state after one event, given the state before it; none where the block may not perform the event:
a second open, or anything but an open and a record while closed (10_state.md R26, 20_memory.md R66, R72). -/
def trackEvent : Bool → Event → Option Bool
  | false, .openPort _ _ ok => some ok
  | true, .openPort _ _ _ => none
  | true, .settle => some true
  | true, .flush => some true
  | true, .write _ => some true
  | true, .readLine _ => some true
  | true, .close => some false
  | false, .settle => none
  | false, .flush => none
  | false, .write _ => none
  | false, .readLine _ => none
  | false, .close => none
  | o, .emit _ => some o

/-- The transport's open state after a history that starts in open state o, none where the history breaks a rule. -/
def track : List Event → Bool → Option Bool
  | [], o => some o
  | e :: es, o =>
    match trackEvent o e with
    | none => none
    | some o' => track es o'

/-- H uses the transport as 20_memory.md R66 and R72 say, and STATUS.OPEN is what H makes it (10_state.md R26). -/
abbrev HistoryInv (s : State) : Prop :=
  track s.hist false = some s.status.opn

/-- One event keeps the rules of its data: a readline's line is legal (20_memory.md R69); an open is of a candidate port at
a candidate or the session baud rate (R67, 45_session.md R232, R237, R246); a write is one of the three command frames
(30_encoding.md R100); an emitted record has a recognised code (R73). -/
def eventLegal (p : Params) : Event → Prop
  | .readLine l => lineLegal l = true
  | .openPort n b _ => n < p.nports ∧ (b ∈ p.bauds ∨ b = sessionBaud)
  | .write l => l = probeFrame ∨ ∃ a, l = settingsFrame a ∨ l = setmodeFrame a
  | .emit r => r.mtype ≠ .none ∧ classify [r.hcode0, r.hcode1] = r.mtype
  | .settle => True
  | .flush => True
  | .close => True

/-- Every event of H keeps the rules of its data. -/
def EventsInv (s : State) : Prop :=
  ∀ e ∈ s.hist, eventLegal s.params e

/-! ## Result codes -/

/-- The codes a command may report (60_exceptions.md R271, the column "reported by", with BAD_STATE for the commands not
allowed in every state). ILLEGAL is the decoder's alone. -/
def mayReport : Instr → List ResCode
  | .crcClr | .crcByte _ | .crcPack | .lineClr | .seqShutdown => [.ok]
  | .linePut _ => [.ok, .overflow]
  | .lineRead => [.ok, .badState, .notOpen, .empty, .overflow]
  | .frmVerify => [.ok, .crcMismatch, .short, .overflow]
  | .frmTokenize => [.ok, .unknownCode, .nonascii, .overflow]
  | .frmProcess => [.ok, .crcMismatch, .short, .unknownCode, .nonascii, .overflow]
  | .txProbe | .xptSettle | .xptFlush => [.ok, .badState, .notOpen]
  | .txSettings | .txSetmode => [.ok, .badState, .notOpen, .noAddr]
  | .rspAddr => [.ok, .badState, .noAddressReply]
  | .rspIdent | .rspAck => [.ok, .noMatch]
  | .xptOpen _ => [.ok, .badState, .openFailed]
  | .xptClose | .addrSet _ => [.ok, .badState]
  | .seqProbe _ => [.ok, .badState, .openFailed, .noAddressReply, .noMatch]
  | .seqDiscover => [.ok, .badState, .notFound]
  | .seqEstablish _ => [.ok, .badState, .noAddr, .openFailed, .setupFailed]
  | .seqCycle => [.ok, .badState, .empty, .crcMismatch, .short, .unknownCode, .nonascii, .overflow]

/-- The transient codes (60_exceptions.md R272 (a)). -/
def ResCode.transient : ResCode → Bool
  | .crcMismatch | .short | .empty | .unknownCode | .nonascii | .overflow => true
  | .ok | .noAddressReply | .noMatch | .notFound | .setupFailed | .illegal | .notOpen | .noAddr | .badState => false
  | .openFailed => false

/-- The command errors (60_exceptions.md R272 (d)). -/
def ResCode.commandError : ResCode → Bool
  | .illegal | .notOpen | .noAddr | .badState => true
  | .ok | .crcMismatch | .short | .empty | .unknownCode | .nonascii | .overflow | .noAddressReply | .noMatch => false
  | .notFound | .setupFailed | .openFailed => false

/-- The setup failures (60_exceptions.md R272 (b)): NOT_FOUND, SETUP_FAILED, and OPEN_FAILED of SEQ.ESTABLISH. -/
def setupFailure (i : Instr) (c : ResCode) : Bool :=
  match c with
  | .notFound => true
  | .setupFailed => true
  | .openFailed => opcode i == 0x62
  | .ok | .crcMismatch | .short | .empty | .unknownCode | .nonascii | .overflow | .noAddressReply | .noMatch => false
  | .illegal | .notOpen | .noAddr | .badState => false

/-- The most events a command may append to H (70_reset_and_hazards.md R313). -/
def eventBound (p : Params) : Instr → Nat
  | .seqProbe _ => 9 * p.bauds.length
  | .seqDiscover => 9 * p.nports * p.bauds.length
  | .seqEstablish _ => 6
  | .seqCycle => 2
  | .crcClr | .crcByte _ | .crcPack | .lineClr | .linePut _ | .lineRead | .frmVerify | .frmTokenize | .frmProcess => 1
  | .txProbe | .txSettings | .txSetmode | .rspAddr | .rspIdent | .rspAck | .xptOpen _ | .xptSettle | .xptFlush => 1
  | .xptClose | .addrSet _ | .seqShutdown => 1

/-- An event that hands a record to the sink (20_memory.md R73). -/
def Event.isEmit : Event → Bool
  | .emit _ => true
  | .openPort _ _ _ | .settle | .flush | .write _ | .readLine _ | .close => false

/-! ## What a command leaves unchanged -/

/-- ACC and CHK0 to CHK2 are as before. -/
abbrev sameCrc (s t : State) : Prop :=
  t.acc = s.acc ∧ t.chk0 = s.chk0 ∧ t.chk1 = s.chk1 ∧ t.chk2 = s.chk2

/-- The header registers, MTYPE and the token store are as before. -/
abbrev sameFrame (s t : State) : Prop :=
  t.haddr = s.haddr ∧ t.hcode0 = s.hcode0 ∧ t.hcode1 = s.hcode1 ∧ t.hlen = s.hlen ∧ t.tok = s.tok ∧
    t.status.mtype = s.status.mtype

/-- The host's inputs and the parameters are as before. -/
abbrev sameOutside (s t : State) : Prop :=
  t.host = s.host ∧ t.params = s.params

/-- LBUF and its flags are as before. -/
abbrev sameLine (s t : State) : Prop :=
  t.lbuf = s.lbuf ∧ t.status.ovf = s.status.ovf ∧ t.status.term = s.status.term

/-! ## Discovery as it shows in H -/

/-- The candidates opened in a list of events, in order (45_session.md R240). -/
def openedCandidates : List Event → List (Nat × Nat)
  | [] => []
  | .openPort p b _ :: es => (p, b) :: openedCandidates es
  | .settle :: es => openedCandidates es
  | .flush :: es => openedCandidates es
  | .write _ :: es => openedCandidates es
  | .readLine _ :: es => openedCandidates es
  | .close :: es => openedCandidates es
  | .emit _ :: es => openedCandidates es

/-- The six events of a candidate (p, b) whose reply r to the probe gives no address (45_session.md R237). -/
def silentExchange (p b : Nat) (r : Bytes) : List Event :=
  [.openPort p b true, .settle, .flush, .write [0x3F, 0x0D, 0x0A], .readLine r, .close]

/-- The nine events of a candidate that gives an address: (p, b) probed, address a from the first reply r1, the settings
request's reply r2 (45_session.md R237, R238). -/
def foundExchange (p b : Nat) (a : Byte) (r1 r2 : Bytes) : List Event :=
  [.openPort p b true, .settle, .flush, .write [0x3F, 0x0D, 0x0A], .readLine r1, .flush,
    .write [a, 0x58, 0x55, 0x0D, 0x0A], .readLine r2, .close]

/-- The events `es` are those of one candidate (p, b) whose probe ends with the code c and not with FOUND (R237): it does
not open, gives no address, or gives one and does not show the model identifier. -/
def candidateFails (q : Params) (p b : Nat) (es : List Event) (c : ResCode) : Prop :=
  (c = .openFailed ∧ es = [.openPort p b false]) ∨
  (c = .noAddressReply ∧ ∃ r, es = silentExchange p b r ∧
    ∀ a, (r.take q.lbufMax).head? = some a → isAlnum a = false) ∨
  (c = .noMatch ∧ ∃ a r1 r2, es = foundExchange p b a r1 r2 ∧ (r1.take q.lbufMax).head? = some a ∧
    isAlnum a = true ∧ contains q.modelId (r2.take q.lbufMax) = false)

/-- The events are failing exchanges with these candidates, one for each and in their order (45_session.md R238, R239). -/
def failingExchanges (q : Params) : List (Nat × Nat) → List Event → Prop
  | [], es => es = []
  | c :: cs, es => ∃ first rest code, es = first ++ rest ∧ candidateFails q c.1 c.2 first code ∧ failingExchanges q cs rest

/-- The lines returned in a list of events, in order (20_memory.md R69). -/
def linesRead : List Event → List Bytes
  | [] => []
  | .readLine l :: es => l :: linesRead es
  | .openPort _ _ _ :: es => linesRead es
  | .settle :: es => linesRead es
  | .flush :: es => linesRead es
  | .write _ :: es => linesRead es
  | .close :: es => linesRead es
  | .emit _ :: es => linesRead es

/-- The ports opened with success in a list of events, in order (20_memory.md R67). -/
def portsOpened : List Event → List Nat
  | [] => []
  | .openPort p _ ok :: es => if ok then p :: portsOpened es else portsOpened es
  | .settle :: es => portsOpened es
  | .flush :: es => portsOpened es
  | .write _ :: es => portsOpened es
  | .readLine _ :: es => portsOpened es
  | .close :: es => portsOpened es
  | .emit _ :: es => portsOpened es

/-- The address of a settings request, `<a>XU` CR LF, which alone of the three command frames has five bytes
(30_encoding.md R100). -/
def askedAddress (l : Bytes) : Option Byte := if l.length = 5 then l.head? else none

/-- The addresses that settings requests in a list of events were sent to, in order. -/
def addressesAsked : List Event → List Byte
  | [] => []
  | .write l :: es => (askedAddress l).toList ++ addressesAsked es
  | .openPort _ _ _ :: es => addressesAsked es
  | .settle :: es => addressesAsked es
  | .flush :: es => addressesAsked es
  | .readLine _ :: es => addressesAsked es
  | .close :: es => addressesAsked es
  | .emit _ :: es => addressesAsked es

/-- LBUF and its flags are those of the line r, loaded (42_line.md R151). -/
abbrev holdsLine (t : State) (r : Bytes) : Prop :=
  t.lbuf = r.take t.params.lbufMax ∧ t.status.ovf = decide (t.params.lbufMax < r.length) ∧
    t.status.term = decide (r.getLast? = some 0x0A) ∧ t.status.vfy = false

/-- From s to t with the new events es, LBUF and its flags are those of the last line read, as before where none was
(10_state.md R25, R30, R31). -/
def lineFollows (s t : State) (es : List Event) : Prop :=
  match (linesRead es).getLast? with
  | none => sameLine s t ∧ t.status.vfy = s.status.vfy
  | some r => holdsLine t r

/-- From s to t with the new events es, PORT is that of the last successful open, as before where none was
(10_state.md R39). -/
def portFollows (s t : State) (es : List Event) : Prop :=
  t.port = ((portsOpened es).map (BitVec.ofNat 8)).getLastD s.port

/-- From s to t with the new events es, ADDR is the address of the last settings request, as before where none was sent
(45_session.md R237). -/
def addrFollows (s t : State) (es : List Event) : Prop :=
  t.addr = (addressesAsked es).getLastD s.addr

end Sys2Proof.Machine
end

