-- ==== Sys2Proof/Certificates/Slice0/Obligations.lean ====
section
/-! DEFINITION. The statements for the provers. Each docstring names the rules of spec/ it comes from. A state is any
state of the model, reachable or not, unless a premise says otherwise; `finished c` is what `finish(c)` leaves (R13). A
clause about all states of SESS but some takes in SCANNING and ESTABLISHING, in which no command is issued (R230): what it
says there is the pseudocode's answer, which is the model's reading (log 8). -/

open Sys2Proof Sys2Proof.Machine

/-! ## Words the statements use -/

namespace Sys2Proof.Claims

/-- The loop of R120 written over natural numbers, apart from the model's own. -/
def crcLoop (acc : Word) (b : Byte) : Word :=
  BitVec.ofNat 16 ((List.range 8).foldl
    (fun n _ => if n % 2 = 1 then (n / 2) ^^^ 0xA001 else n / 2) (acc.toNat ^^^ b.toNat))

/-- The alphanumeric bytes of R200. -/
def alnum (b : Byte) : Prop :=
  (0x30 ≤ b.toNat ∧ b.toNat ≤ 0x39) ∨ (0x41 ≤ b.toNat ∧ b.toNat ≤ 0x5A) ∨ (0x61 ≤ b.toNat ∧ b.toNat ≤ 0x7A)

/-- The whitespace bytes of R171. -/
def whitespace (b : Byte) : Prop :=
  b = 0x09 ∨ b = 0x0A ∨ b = 0x0B ∨ b = 0x0C ∨ b = 0x0D ∨ b = 0x20

/-- The candidates of R239: the outer loop over the ports, the inner one over the baud rates. -/
def candidates (p : Params) : List (Nat × Nat) :=
  (List.range p.nports).flatMap fun n => p.bauds.map fun b => (n, b)

/-- The events of R246 from the open to the reply r, for port p and address a. -/
def modeExchange (p : Nat) (a : Byte) (r : Bytes) : List Event :=
  [.openPort p 9600 true, .settle, .flush,
    .write [a, 0x58, 0x55, 0x2C, 0x4D, 0x3D, 0x61, 0x0D, 0x0A], .readLine r]

/-- What a failed establishment leaves (R246, R272 (b)): SESSION_FAILED, FATAL, the transport closed, AUTO as it was. -/
def establishFailed (s t : State) : Prop :=
  t.sess = .sessionFailed ∧ t.status.fatal = true ∧ t.status.opn = false ∧ t.status.auto = s.status.auto

/-- The state s with the frame registers as R175 clears them. -/
def frameCleared (s : State) : State :=
  { s with
    haddr := 0x00, hcode0 := 0x00, hcode1 := 0x00, hlen := 0, tok := []
    status := { s.status with mtype := .none } }

/-- How a candidate of a scripted transport fails (R237): it does not open (none), or it opens and sends these lines: one
that gives no address, or two, the second without the model identifier. -/
def scriptFails (q : Params) (answer : Option (List Bytes)) : Prop :=
  answer = none ∨
  (∃ r, answer = some [r] ∧ lineLegal r = true ∧ ∀ a, r.head? = some a → isAlnum a = false) ∨
  (∃ a r1 r2, answer = some [a :: r1, r2] ∧ lineLegal (a :: r1) = true ∧ lineLegal r2 = true ∧ isAlnum a = true ∧
    contains q.modelId (r2.take q.lbufMax) = false)

/-- The events of a candidate that fails so. -/
def scriptEvents (p b : Nat) : Option (List Bytes) → List Event
  | none => [.openPort p b false]
  | some [] => []
  | some [r] => silentExchange p b r
  | some (r1 :: r2 :: _) => foundExchange p b (r1.headD 0) r1 r2

/-- The values of RES (R271). -/
def resValue : ResCode → Nat
  | .ok => 0
  | .crcMismatch => 1
  | .short => 2
  | .empty => 3
  | .unknownCode => 4
  | .nonascii => 5
  | .overflow => 6
  | .noAddressReply => 7
  | .noMatch => 8
  | .notFound => 9
  | .setupFailed => 10
  | .illegal => 11
  | .notOpen => 12
  | .noAddr => 13
  | .badState => 14
  | .openFailed => 15

/-- The values of SESS (R35). -/
def sessValue : Sess → Nat
  | .idle => 0
  | .scanning => 1
  | .found => 2
  | .notFound => 3
  | .establishing => 4
  | .sessionReady => 5
  | .sessionFailed => 6

/-- The values of MTYPE (R29). -/
def mtypeValue : MsgType → Nat
  | .none => 0
  | .wind => 1
  | .ptu => 2
  | .rain => 3
  | .status => 4

/-- No reset stands next in the host's inputs. -/
def noReset (s : State) : Prop := ∀ after rest, s.host ≠ .reset after :: rest

end Sys2Proof.Claims

open Sys2Proof.Claims

/-! ## Encoding -/

/-- R90, R92, R65: a command's word, and its two bytes opcode first, decode to that command. -/
def Obligations.DecodeOfEncodeGivesTheCommand : Prop :=
  ∀ i : Instr, i.wellFormed = true →
    decode (encode i) = .command i ∧ decodeBytes (bytesOfWord (encode i)) = some (.command i, [])

/-- R92: a word that decodes to a command is that command's own word: no bit of a word is dropped. -/
def Obligations.EncodeOfDecodeGivesTheWord : Prop :=
  ∀ (w : Word) (i : Instr), decode w = .command i → encode i = w

/-- R94, R95: a word is a command exactly when its opcode is assigned and its operand is 0x00 where none is taken; any
other word is rejected by the name of what is wrong with it. -/
def Obligations.DecoderIsTotalAndRejectsByName : Prop :=
  ∀ w : Word,
    (wordOk w = true ↔ ∃ i, decode w = .command i) ∧
    (opUnassigned (fieldOp w) = true → decode w = .illegal (.unassignedOpcode (fieldOp w))) ∧
    (opUnassigned (fieldOp w) = false → opTakesOperand (fieldOp w) = false → fieldImm w ≠ 0 →
      decode w = .illegal (.operandNotZero (fieldOp w) (fieldImm w)))

/-- R92 and the vectors of 95_test_vectors.md: a few words written out decode to what they stand for. -/
def Obligations.SampleWordsDecode : Prop :=
  decode 0x1130 = .command (.crcByte 0x30) ∧ decode 0x2000 = .command .lineClr ∧
    decode 0x3200 = .command .frmProcess ∧ decode 0x4A00 = .command .rspAck ∧
    decode 0x6201 = .command (.seqEstablish 1) ∧ decode 0x0000 = .illegal (.unassignedOpcode 0x00) ∧
    decode 0xFFFF = .illegal (.unassignedOpcode 0xFF) ∧ decode 0x6101 = .illegal (.operandNotZero 0x61 0x01)

/-! ## Steps -/

/-- R90, R91, R65: at a port that accepts, a word (or its two bytes) that decodes to a well-formed command runs it: the
step is exec of it, on the state with the input taken and BUSY set. The list of host inputs is the model's (log 3). -/
def Obligations.StepRunsTheDecodedCommand : Prop :=
  ∀ (s : State) (rest : List HostInput) (i : Instr), i.wellFormed = true → s.status.busy = false →
    (∀ w, s.host = .word w :: rest → decode w = .command i →
      step s = exec i { s with host := rest, status := { s.status with busy := true } }) ∧
    (∀ a b, s.host = .wordBytes a b :: rest → decode (a ++ b) = .command i →
      step s = exec i { s with host := rest, status := { s.status with busy := true } })

/-- R65, R94, R95, R273: an illegal word, or its two bytes, sets RES to ILLEGAL and changes nothing else. The list of host
inputs is the model's (log 3). -/
def Obligations.IllegalWordChangesOnlyRes : Prop :=
  ∀ (s : State) (rest : List HostInput), s.status.busy = false →
    (∀ w, s.host = .word w :: rest → wordOk w = false →
      step s = .next { s with host := rest, status := { s.status with res := .illegal } }) ∧
    (∀ a b : Byte, s.host = .wordBytes a b :: rest → wordOk (a ++ b) = false →
      step s = .next { s with host := rest, status := { s.status with res := .illegal } })

/-- R65, R91, R287: with no word presented the block keeps all its state; a word, or its two bytes, presented while
BUSY = 1 waits. That a wait is a step that keeps the state is the model's choice (log 3, log 7). -/
def Obligations.IdleAndBusyStepsKeepTheState : Prop :=
  ∀ s : State, (s.host = [] → step s = .next s) ∧
    (∀ w rest, s.host = .word w :: rest → s.status.busy = true → step s = .next s) ∧
    (∀ a b rest, s.host = .wordBytes a b :: rest → s.status.busy = true → step s = .next s)

/-- R47, R300: a reset, in any state, sets every register to its table value, empties H, closes the transport with no
event, and leaves the parameters (R303). The state of the transport after it is named by the input (log 3, log 5). -/
def Obligations.ResetGivesTheTableValues : Prop :=
  ∀ (s : State) (after : Transport) (rest : List HostInput), s.host = .reset after :: rest →
    ∃ t, step s = .next t ∧ (∀ n : Byte, rdReg n t = if n = 3 ∨ n = 4 ∨ n = 5 then 0x0040 else 0x0000) ∧
      t.sess = .idle ∧ t.status.opn = false ∧ t.lbuf = [] ∧ t.tok = [] ∧ t.hist = [] ∧
      t.xpt = after ∧ t.host = rest ∧ t.params = s.params

/-- A reset after a command has finished leaves the state that a reset before it leaves. That this stands for R300 (d), the
reset of a command that runs, is the model's choice: a command is one step (log 4, DEDUCED). -/
def Obligations.ResetLosesARunningCommand : Prop :=
  ∀ (i : Instr) (s t : State) (after : Transport), exec i s = .next t → resetBlock after t = resetBlock after s

/-- R13, R33, R270, R271: every command ends, in every state, with BUSY cleared and one of the codes the table of R271
lists for it. -/
def Obligations.EveryCommandEndsWithOneOfItsCodes : Prop :=
  ∀ (i : Instr) (s : State), ∃ t, exec i s = .next t ∧ t.status.res ∈ mayReport i ∧ t.status.busy = false

/-! ## Checksum -/

/-- R120: the CRC step loses nothing: with the byte fixed it is injective in the accumulator, and with the accumulator
fixed in the byte. -/
def Obligations.CrcStepIsInjectiveInEachArgument : Prop :=
  (∀ (a a' : Word) (b : Byte), crcStep a b = crcStep a' b → a = a') ∧
    (∀ (a : Word) (b b' : Byte), crcStep a b = crcStep a b' → b = b')

/-- R123: the ranges of the checksum bytes, the bytes that are none, the inverse of pack, and when 0x7F is reached. -/
def Obligations.PackHasItsRangeAndInverse : Prop :=
  ∀ crc : Word,
    (0x40 ≤ (pack0 crc).toNat ∧ (pack0 crc).toNat ≤ 0x4F) ∧
    (0x40 ≤ (pack1 crc).toNat ∧ (pack1 crc).toNat ≤ 0x7F) ∧
    (0x40 ≤ (pack2 crc).toNat ∧ (pack2 crc).toNat ≤ 0x7F) ∧
    (∀ b ∈ pack crc, b ≠ 0x0A ∧ b ≠ 0x0D ∧ b ≠ 0x20 ∧ b ≠ 0x2C ∧ b ≠ 0x3D) ∧
    unpack (pack0 crc) (pack1 crc) (pack2 crc) = crc ∧
    (∀ crc', pack crc = pack crc' → crc = crc') ∧
    ((pack1 crc = 0x7F ∨ pack2 crc = 0x7F) ↔ crc.extractLsb' 6 6 = 0x3F ∨ crc.extractLsb' 0 6 = 0x3F)

/-- R124, R125, R126 with R122 in its shift and mask form: what the three commands write; all else but RES and BUSY is
unchanged. -/
def Obligations.CrcCommandsGiveTheirResult : Prop :=
  ∀ (s : State) (b : Byte),
    exec .crcClr s = .next (finished .ok { s with acc := 0x0000 }) ∧
    exec (.crcByte b) s = .next (finished .ok { s with acc := crcLoop s.acc b }) ∧
    exec .crcPack s = .next (finished .ok { s with
      chk0 := 0x40 ||| (s.acc >>> 12).setWidth 8
      chk1 := 0x40 ||| ((s.acc >>> 6) &&& 0x3F).setWidth 8
      chk2 := 0x40 ||| (s.acc &&& 0x3F).setWidth 8 })

/-- R127: CRC.COMPUTE, issued word by word, leaves the payload's CRC and its packing, and RES = OK; all else is as it was.
The list of host inputs it is issued into is the model's (log 3). -/
def Obligations.CrcComputeLeavesTheChecksum : Prop :=
  ∀ (s : State) (p : Bytes), s.status.busy = false →
    Host.Core.run Sys2Proof.core (p.length + 2) (issue (crcCompute p) s) =
      .next { s with
        acc := crc16 p
        chk0 := pack0 (crc16 p), chk1 := pack1 (crc16 p), chk2 := pack2 (crc16 p)
        status := { s.status with res := .ok } }

/-- R128: the check values. -/
def Obligations.CrcCheckValues : Prop :=
  crc16 [] = 0x0000 ∧ crc16 [0x30] = 0x1400 ∧ crc16 [0x30, 0x72, 0x31] = 0x7BE5 ∧
    crc16 [0x31, 0x32, 0x33, 0x34, 0x35, 0x36, 0x37, 0x38, 0x39] = 0xBB3D

/-! ## Line buffer -/

/-- R150, R152, R153: LINE.CLR and LINE.PUT, with the byte stored, dropped for want of room, or stored while an earlier
one was dropped. -/
def Obligations.LineClrAndPutGiveTheirResult : Prop :=
  ∀ (s : State) (b : Byte),
    exec .lineClr s = .next (finished .ok
      { s with lbuf := [], status := { s.status with ovf := false, term := false, vfy := false } }) ∧
    (s.lbuf.length < s.params.lbufMax →
      exec (.linePut b) s = .next (finished (if s.status.ovf then .overflow else .ok)
        { s with lbuf := s.lbuf ++ [b], status := { s.status with term := false, vfy := false } })) ∧
    (s.params.lbufMax ≤ s.lbuf.length →
      exec (.linePut b) s = .next (finished .overflow
        { s with status := { s.status with ovf := true, term := false, vfy := false } }))

/-- R69, R151, R154: LINE.READ: BAD_STATE outside IDLE and SESSION_READY, NOT_OPEN with no port open, each with no other
change. Where it runs, the line the transport returns is legal, its first P_LBUF_MAX bytes are stored, OVF and TERM
describe it, VFY is cleared, and one event is recorded. The transport's queue is the model's (log 5). -/
def Obligations.LineReadStoresTheLine : Prop :=
  ∀ s : State,
    (s.sess ≠ .idle → s.sess ≠ .sessionReady → exec .lineRead s = .next (finished .badState s)) ∧
    (s.sess = .idle ∨ s.sess = .sessionReady → s.status.opn = false →
      exec .lineRead s = .next (finished .notOpen s)) ∧
    (s.sess = .idle ∨ s.sess = .sessionReady → s.status.opn = true →
      let l := nextLine s
      let long := decide (s.params.lbufMax < l.length)
      lineLegal l = true ∧ (∀ x y, l = x ++ 0x0A :: y → y = []) ∧
      exec .lineRead s = .next (finished (if l = [] then .empty else if long then .overflow else .ok)
        { s with
          lbuf := l.take s.params.lbufMax
          hist := s.hist ++ [.readLine l]
          xpt := s.xpt.afterRead s.hist
          status := { s.status with ovf := long, term := decide (l.getLast? = some 0x0A), vfy := false } }))

/-- R45 (a), R70: what the transport had received before an XPT.FLUSH has no influence on anything after it. The queue is
a field of the model (log 5). -/
def Obligations.FlushForgetsReceivedBytes : Prop :=
  ∀ (s : State) (q : Bytes), s.sess = .idle → s.status.opn = true →
    exec .xptFlush { s with xpt := { s.xpt with rx := q } } = exec .xptFlush s ∧
    ∃ t, exec .xptFlush s = .next t ∧ t.xpt.rx = []

/-! ## Text -/

/-- R170: strip_term removes exactly the CR and LF bytes at the end. -/
def Obligations.StripTermRemovesTrailingTerminators : Prop :=
  ∀ s t : Bytes, stripTerm s = t ↔
    (∃ z, s = t ++ z ∧ ∀ b ∈ z, b = 0x0D ∨ b = 0x0A) ∧ t.getLast? ≠ some 0x0D ∧ t.getLast? ≠ some 0x0A

/-- R173: split cuts at every c and nowhere else, k occurrences giving k+1 pieces; split_first_eq cuts at the first 0x3D. -/
def Obligations.SplittingCutsWhereTheRuleSays : Prop :=
  (∀ (c : Byte) (s : Bytes), List.intercalate [c] (split c s) = s ∧ (∀ p ∈ split c s, c ∉ p) ∧
    (split c s).length = s.count c + 1) ∧
  (∀ (p l v : Bytes), splitFirstEq p = some { label := l, value := v } ↔ p = l ++ 0x3D :: v ∧ 0x3D ∉ l) ∧
  (∀ p : Bytes, splitFirstEq p = none ↔ 0x3D ∉ p)

/-- R171: trim_ws removes exactly the bytes of W at both ends, and R177: the body is what is left less its last three
bytes. R187: where a frame has no leading whitespace and nothing but CR and LF after its checksum, strip_term and trim_ws
remove the same bytes. -/
def Obligations.TrimmingRemovesWhitespaceAndAgreesWithStripping : Prop :=
  (∀ s t : Bytes, trimWs s = t ↔
    ∃ x z, s = x ++ t ++ z ∧ (∀ b ∈ x ++ z, whitespace b) ∧ (∀ b, t.head? = some b → ¬ whitespace b) ∧
      (∀ b, t.getLast? = some b → ¬ whitespace b)) ∧
  (∀ s : Bytes, frameBody s = (trimWs s).take ((trimWs s).length - 3)) ∧
  (∀ (t z : Bytes) (a c : Byte), t.head? = some a → ¬ whitespace a → t.getLast? = some c → ¬ whitespace c →
    (∀ b ∈ z, b = 0x0D ∨ b = 0x0A) →
    stripTerm (t ++ z) = t ∧ trimWs (t ++ z) = t ∧ frameBody (t ++ z) = dropLast3 (stripTerm (t ++ z)))

/-- R184: lookup takes the last token with the label, and a label with no token is absent. -/
def Obligations.LookupTakesTheLastToken : Prop :=
  (∀ (r : Record) (l v : Bytes) (before after : List Token),
    r.tokens = before ++ { label := l, value := v } :: after → (∀ t ∈ after, t.label ≠ l) → r.lookup l = some v) ∧
  (∀ (r : Record) (l : Bytes), r.lookup l = none ↔ ∀ t ∈ r.tokens, t.label ≠ l)

/-! ## Frames -/

/-- R172, R176: FRM.VERIFY on a truncated line, on one too short for a checksum, and on payload, checksum and terminator. -/
def Obligations.FrmVerifyJudgesTheChecksum : Prop :=
  ∀ s : State,
    (s.status.ovf = true →
      exec .frmVerify s = .next (finished .overflow { s with status := { s.status with vfy := false } })) ∧
    (s.status.ovf = false → (stripTerm s.lbuf).length < 3 →
      exec .frmVerify s = .next (finished .short { s with status := { s.status with vfy := false } })) ∧
    (∀ (p z : Bytes) (k0 k1 k2 : Byte), s.status.ovf = false → s.lbuf = p ++ [k0, k1, k2] ++ z →
      (∀ b ∈ z, b = 0x0D ∨ b = 0x0A) → k2 ≠ 0x0D → k2 ≠ 0x0A →
      let good := decide ([k0, k1, k2] = pack (crc16 p))
      exec .frmVerify s = .next (finished (if good then .ok else .crcMismatch)
        { s with
          acc := crc16 p
          chk0 := pack0 (crc16 p), chk1 := pack1 (crc16 p), chk2 := pack2 (crc16 p)
          status := { s.status with vfy := good } }))

/-- R174, its table written out; and R175, R177 to R181, the cleared frame registers written out: FRM.TOKENIZE on a
truncated line, on a body that is not ASCII, and on a body split into its header and field pieces, with room for the tokens
or without. -/
def Obligations.FrmTokenizeSplitsTheBody : Prop :=
  (∀ c : Bytes,
    (classify c = .wind ↔ c = [0x72, 0x31]) ∧ (classify c = .ptu ↔ c = [0x72, 0x32]) ∧
    (classify c = .rain ↔ c = [0x72, 0x33]) ∧ (classify c = .status ↔ c = [0x72, 0x35]) ∧
    (classify c = .none ↔ c ≠ [0x72, 0x31] ∧ c ≠ [0x72, 0x32] ∧ c ≠ [0x72, 0x33] ∧ c ≠ [0x72, 0x35])) ∧
  ∀ s : State,
    (s.status.ovf = true → exec .frmTokenize s = .next (finished .overflow (frameCleared s))) ∧
    (s.status.ovf = false → (∃ b ∈ frameBody s.lbuf, 0x80 ≤ b.toNat) →
      exec .frmTokenize s = .next (finished .nonascii (frameCleared s))) ∧
    (∀ (h : Bytes) (fields : List Bytes), s.status.ovf = false → (∀ b ∈ frameBody s.lbuf, b.toNat < 0x80) →
      split 0x2C (frameBody s.lbuf) = h :: fields →
      let ts := fields.filterMap splitFirstEq
      (s.params.ntokMax < ts.length → exec .frmTokenize s = .next (finished .overflow (frameCleared s))) ∧
      (ts.length ≤ s.params.ntokMax →
        exec .frmTokenize s = .next (finished (if classify h.tail = .none then .unknownCode else .ok)
          { s with
            haddr := h.getD 0 0, hcode0 := h.getD 1 0, hcode1 := h.getD 2 0, hlen := BitVec.ofNat 16 h.length
            tok := ts
            status := { s.status with mtype := classify h.tail } })))

/-- R183: FRM.PROCESS is FRM.VERIFY on cleared frame registers, then FRM.TOKENIZE if it verified, then one record if its
code is recognised; where a step fails, its state and code are the command's. -/
def Obligations.FrmProcessVerifiesThenTokenizesThenEmits : Prop :=
  ∀ s : State, ∃ v, exec .frmVerify (clearFrame s) = .next v ∧
    (v.status.res ≠ .ok → exec .frmProcess s = .next v) ∧
    (v.status.res = .ok → ∃ t, exec .frmTokenize v = .next t ∧
      (t.status.res ≠ .ok → exec .frmProcess s = .next t) ∧
      (t.status.res = .ok → exec .frmProcess s = .next { t with
        hist := t.hist ++ [.emit { haddr := t.haddr, hcode0 := t.hcode0, hcode1 := t.hcode1,
                                   mtype := t.status.mtype, tokens := t.tok }] }))

/-- R185, its first sentence: a payload with its checksum and a terminator, loaded with LINE.LOAD, verifies. The list of
host inputs the words are issued into is the model's (log 3). -/
def Obligations.LoadedFrameWithItsChecksumVerifies : Prop :=
  ∀ (s : State) (p z : Bytes), s.status.busy = false → (z = [] ∨ z = [0x0D, 0x0A] ∨ z = [0x0A]) →
    p.length + 3 + z.length ≤ s.params.lbufMax →
    ∃ t, Host.Core.run Sys2Proof.core (p.length + z.length + 5)
        (issue (lineLoadStr (p ++ pack (crc16 p) ++ z) ++ [.frmVerify]) s) = .next t ∧
      t.status.vfy = true ∧ t.status.res = .ok ∧ t.acc = crc16 p ∧ t.lbuf = p ++ pack (crc16 p) ++ z ∧
      sameFrame s t ∧ sameOutside s t ∧ t.hist = s.hist ∧ t.sess = s.sess

/-- R185, its second sentence, with each terminator, less the one case in which the pseudocode of R170 and R172 contradicts
it (log 9: the last checksum byte changed to CR or LF is stripped as a terminator): a frame with one byte changed does not
verify. -/
def Obligations.OneChangedByteNeverVerifies : Prop :=
  ∀ (s : State) (p z : Bytes) (k : Nat) (v : Byte), (z = [] ∨ z = [0x0D, 0x0A] ∨ z = [0x0A]) → k < p.length + 3 →
    (p ++ pack (crc16 p))[k]? ≠ some v → (k = p.length + 2 → v ≠ 0x0D ∧ v ≠ 0x0A) →
    s.lbuf = (p ++ pack (crc16 p)).set k v ++ z →
    ∃ t, exec .frmVerify s = .next t ∧ t.status.vfy = false

/-- R186: the tokenize round trip. -/
def Obligations.TokenizeRecoversTheTokens : Prop :=
  ∀ (s : State) (a : Byte) (c l1 v1 l2 v2 : Bytes),
    let f := [a] ++ c ++ [0x2C] ++ l1 ++ [0x3D] ++ v1 ++ [0x2C] ++ l2 ++ [0x3D] ++ v2
    ¬ whitespace a → a ≠ 0x2C → classify c ≠ .none → (∀ b ∈ l1 ++ v1 ++ l2 ++ v2, b ≠ 0x2C) →
    (∀ b ∈ l1 ++ l2, b ≠ 0x3D) → (∀ b ∈ f, b.toNat < 0x80) → 2 ≤ s.params.ntokMax → s.status.ovf = false →
    s.lbuf = f ++ pack (crc16 f) →
    ∃ t, exec .frmTokenize s = .next t ∧ t.status.res = .ok ∧ t.haddr = a ∧ [t.hcode0, t.hcode1] = c ∧
      t.hlen = 3 ∧ t.status.mtype = classify c ∧
      t.tok = [{ label := l1, value := v1 }, { label := l2, value := v2 }] ∧
      sameCrc s t ∧ t.lbuf = s.lbuf ∧ t.status.vfy = s.status.vfy ∧ t.hist = s.hist

/-! ## Wire -/

/-- R100, R202 to R205: the TX commands write their frame, or report the first check that fails with no event. -/
def Obligations.TxCommandsWriteTheirFrame : Prop :=
  ∀ s : State,
    (s.sess ≠ .idle → exec .txProbe s = .next (finished .badState s) ∧
      exec .txSettings s = .next (finished .badState s) ∧ exec .txSetmode s = .next (finished .badState s)) ∧
    (s.sess = .idle → s.status.opn = false → exec .txProbe s = .next (finished .notOpen s) ∧
      exec .txSettings s = .next (finished .notOpen s) ∧ exec .txSetmode s = .next (finished .notOpen s)) ∧
    (s.sess = .idle → s.status.opn = true →
      exec .txProbe s = .next (finished .ok { s with hist := s.hist ++ [.write [0x3F, 0x0D, 0x0A]] }) ∧
      (s.status.addrv = false → exec .txSettings s = .next (finished .noAddr s) ∧
        exec .txSetmode s = .next (finished .noAddr s)) ∧
      (s.status.addrv = true →
        exec .txSettings s = .next (finished .ok
          { s with hist := s.hist ++ [.write [s.addr, 0x58, 0x55, 0x0D, 0x0A]] }) ∧
        exec .txSetmode s = .next (finished .ok
          { s with hist := s.hist ++ [.write [s.addr, 0x58, 0x55, 0x2C, 0x4D, 0x3D, 0x61, 0x0D, 0x0A]] })))

/-- R207, R209: RSP.ADDR takes the first byte of the line as the address when it is a digit or a letter, in IDLE only. -/
def Obligations.RspAddrTakesAnAlphanumericByte : Prop :=
  ∀ s : State,
    (s.sess ≠ .idle → exec .rspAddr s = .next (finished .badState s)) ∧
    (∀ (a : Byte) (rest : Bytes), s.sess = .idle → s.lbuf = a :: rest → alnum a →
      exec .rspAddr s = .next (finished .ok { s with addr := a, status := { s.status with addrv := true } })) ∧
    (s.sess = .idle → (∀ a, s.lbuf.head? = some a → ¬ alnum a) →
      exec .rspAddr s = .next (finished .noAddressReply s))

/-- R11, R208, R210, R211: RSP.IDENT and RSP.ACK answer OK exactly when the model identifier, or `,M=a`, stands somewhere
in the line, and change RES only. -/
def Obligations.RspTestsSearchTheLine : Prop :=
  ∀ s : State,
    ((∃ x y, s.lbuf = x ++ s.params.modelId ++ y) → exec .rspIdent s = .next (finished .ok s)) ∧
    ((¬ ∃ x y, s.lbuf = x ++ s.params.modelId ++ y) → exec .rspIdent s = .next (finished .noMatch s)) ∧
    ((∃ x y, s.lbuf = x ++ [0x2C, 0x4D, 0x3D, 0x61] ++ y) → exec .rspAck s = .next (finished .ok s)) ∧
    ((¬ ∃ x y, s.lbuf = x ++ [0x2C, 0x4D, 0x3D, 0x61] ++ y) → exec .rspAck s = .next (finished .noMatch s))

/-! ## Transport -/

/-- R67, R232: XPT.OPEN p in IDLE with no port open: it opens a candidate port at 9600 or reports that it could not; it is
refused elsewhere and while a port is open. The transport after an open is the model's (log 2, log 5). -/
def Obligations.XptOpenGivesItsResult : Prop :=
  ∀ (s : State) (p : Byte),
    (s.sess ≠ .idle ∨ s.status.opn = true → exec (.xptOpen p) s = .next (finished .badState s)) ∧
    (s.sess = .idle → s.status.opn = false → s.params.nports ≤ p.toNat →
      exec (.xptOpen p) s = .next (finished .openFailed s)) ∧
    (s.sess = .idle → s.status.opn = false → p.toNat < s.params.nports →
      (nextOpen s = true → exec (.xptOpen p) s = .next (finished .ok
        { s with
          port := p, xpt := s.xpt.afterOpen, hist := s.hist ++ [.openPort p.toNat 9600 true]
          status := { s.status with opn := true } })) ∧
      (nextOpen s = false → exec (.xptOpen p) s = .next (finished .openFailed
        { s with xpt := s.xpt.afterOpen, hist := s.hist ++ [.openPort p.toNat 9600 false] })))

/-- R233 to R236: XPT.SETTLE, XPT.FLUSH, XPT.CLOSE and ADDR.SET, with their checks. -/
def Obligations.ManualTransportCommandsGiveTheirResult : Prop :=
  ∀ (s : State) (a : Byte),
    (s.sess ≠ .idle → exec .xptSettle s = .next (finished .badState s) ∧
      exec .xptFlush s = .next (finished .badState s) ∧ exec .xptClose s = .next (finished .badState s) ∧
      exec (.addrSet a) s = .next (finished .badState s)) ∧
    (s.sess = .idle →
      exec (.addrSet a) s = .next (finished .ok { s with addr := a, status := { s.status with addrv := true } }) ∧
      (s.status.opn = false → exec .xptSettle s = .next (finished .notOpen s) ∧
        exec .xptFlush s = .next (finished .notOpen s) ∧ exec .xptClose s = .next (finished .ok s)) ∧
      (s.status.opn = true →
        exec .xptSettle s = .next (finished .ok { s with hist := s.hist ++ [.settle] }) ∧
        exec .xptFlush s = .next (finished .ok
          { s with hist := s.hist ++ [.flush], xpt := { s.xpt with rx := [] } }) ∧
        exec .xptClose s = .next (finished .ok
          { s with hist := s.hist ++ [.close], status := { s.status with opn := false } })))

/-! ## Session -/

/-- R93, R237, R238: SEQ.PROBE p: BAD_STATE outside IDLE or with a port open, OPEN_FAILED for an index that is no port, each
with no other change. Where it runs, it ends FOUND with the address of the first reply and the model identifier in the
second, or IDLE with no address and the last candidate's code; the transport is closed, candidates are opened in order,
each at most once, every one before the last fails, so that the search stops at the first found, and PORT, ADDR, LBUF and
its flags are those of the last open, address and line. -/
def Obligations.SeqProbeSearchesItsPort : Prop :=
  ∀ (s : State) (p : Byte),
    (s.sess ≠ .idle ∨ s.status.opn = true → exec (.seqProbe p) s = .next (finished .badState s)) ∧
    (s.sess = .idle → s.status.opn = false → s.params.nports ≤ p.toNat →
      exec (.seqProbe p) s = .next (finished .openFailed s)) ∧
    (s.sess = .idle → s.status.opn = false → p.toNat < s.params.nports →
      ∃ t es, exec (.seqProbe p) s = .next t ∧ t.hist = s.hist ++ es ∧ t.status.opn = false ∧
        sameCrc s t ∧ sameFrame s t ∧ sameOutside s t ∧ t.status.auto = s.status.auto ∧
        t.status.fatal = s.status.fatal ∧ portFollows s t es ∧ addrFollows s t es ∧ lineFollows s t es ∧
        ((t.status.res = .ok ∧ t.sess = .found ∧ t.fport = p ∧ t.port = p ∧ t.status.addrv = true ∧
            ∃ b r1 r2 before rest, es = before ++ foundExchange p.toNat b t.addr r1 r2 ∧
              (r1.take s.params.lbufMax).head? = some t.addr ∧ isAlnum t.addr = true ∧
              holdsLine t r2 ∧ contains s.params.modelId t.lbuf = true ∧
              openedCandidates es ++ rest = s.params.bauds.map (fun b => (p.toNat, b)) ∧
              ∃ tried untried, s.params.bauds = tried ++ b :: untried ∧
                failingExchanges s.params (tried.map fun b => (p.toNat, b)) before) ∨
         (t.sess = .idle ∧ t.fport = s.fport ∧ t.status.addrv = false ∧
            openedCandidates es = s.params.bauds.map (fun b => (p.toNat, b)) ∧
            (s.params.bauds = [] ∧ es = [] ∧ t.status.res = .openFailed ∨
              ∃ tried b before last, s.params.bauds = tried ++ [b] ∧ es = before ++ last ∧
                failingExchanges s.params (tried.map fun b => (p.toNat, b)) before ∧
                candidateFails s.params p.toNat b last t.status.res))))

/-- R239, R240: SEQ.DISCOVER where it runs: it ends FOUND at the port of the last candidate opened, whose replies give the
address and hold the model identifier, every one before it having failed, or NOT_FOUND and FATAL after every candidate
failed, each opened once, in order; PORT, ADDR, LBUF and its flags are those of the last open, address and line. Elsewhere
it is refused. -/
def Obligations.SeqDiscoverSearchesEveryCandidate : Prop :=
  ∀ s : State,
    (s.sess ≠ .idle ∨ s.status.opn = true → exec .seqDiscover s = .next (finished .badState s)) ∧
    (s.sess = .idle → s.status.opn = false →
      ∃ t es, exec .seqDiscover s = .next t ∧ t.hist = s.hist ++ es ∧ t.status.opn = false ∧
        sameCrc s t ∧ sameFrame s t ∧ sameOutside s t ∧ t.status.auto = s.status.auto ∧
        portFollows s t es ∧ addrFollows s t es ∧ lineFollows s t es ∧
        ((t.status.res = .ok ∧ t.sess = .found ∧ t.status.addrv = true ∧ t.status.fatal = s.status.fatal ∧
            ∃ p b r1 r2 before rest, es = before ++ foundExchange p b t.addr r1 r2 ∧
              t.fport = BitVec.ofNat 8 p ∧ t.port = BitVec.ofNat 8 p ∧
              (r1.take s.params.lbufMax).head? = some t.addr ∧ isAlnum t.addr = true ∧
              holdsLine t r2 ∧ contains s.params.modelId t.lbuf = true ∧
              openedCandidates es ++ rest = candidates s.params ∧
              ∃ tried untried, candidates s.params = tried ++ (p, b) :: untried ∧
                failingExchanges s.params tried before) ∨
         (t.status.res = .notFound ∧ t.sess = .notFound ∧ t.status.addrv = false ∧ t.status.fatal = true ∧
            t.fport = s.fport ∧ openedCandidates es = candidates s.params ∧
            failingExchanges s.params (candidates s.params) es)))

/-- R239, R240 (a), on a scripted transport: when every candidate before (p, b) fails, by not opening, by giving no address
or by not showing the model identifier, and (p, b) answers with an address and the identifier, discovery ends FOUND at
port p, and H holds exactly these exchanges. The scripts are the model's (log 2). -/
def Obligations.SeqDiscoverFindsTheFirstAnsweringPort : Prop :=
  ∀ (s : State) (before after : List (Nat × Nat)) (p b : Nat) (earlier : List (Option (List Bytes))) (os : List Bool)
    (a : Byte) (r1 r2 : Bytes) (ls : List Bytes),
    s.sess = .idle → s.status.opn = false → 1 ≤ s.params.lbufMax →
    candidates s.params = before ++ (p, b) :: after → earlier.length = before.length →
    (∀ answer ∈ earlier, scriptFails s.params answer) →
    s.xpt.opens = earlier.map Option.isSome ++ true :: os →
    s.xpt.lines = earlier.flatMap (fun answer => answer.getD []) ++ (a :: r1) :: r2 :: ls →
    lineLegal (a :: r1) = true → lineLegal r2 = true → isAlnum a = true →
    contains s.params.modelId (r2.take s.params.lbufMax) = true →
    ∃ t, exec .seqDiscover s = .next t ∧ t.status.res = .ok ∧ t.sess = .found ∧ t.fport = BitVec.ofNat 8 p ∧
      t.port = BitVec.ofNat 8 p ∧ t.addr = a ∧ t.status.addrv = true ∧ t.status.opn = false ∧ holdsLine t r2 ∧
      t.hist = s.hist ++ (before.zip earlier).flatMap (fun c => scriptEvents c.1.1 c.1.2 c.2) ++
        foundExchange p b a (a :: r1) r2

/-- R246, R247: SEQ.ESTABLISH p: BAD_STATE outside IDLE and FOUND or with a port open, NO_ADDR with no address held, each
with no other change. Where it runs, the session is ready, with the port left open and AUTO set, exactly when the reply to
the mode-set command holds `,M=a`; otherwise it fails for good, with the transport closed. -/
def Obligations.SeqEstablishStartsOrFails : Prop :=
  ∀ (s : State) (p : Byte),
    ((s.sess ≠ .idle ∧ s.sess ≠ .found) ∨ s.status.opn = true →
      exec (.seqEstablish p) s = .next (finished .badState s)) ∧
    (s.sess = .idle ∨ s.sess = .found → s.status.opn = false → s.status.addrv = false →
      exec (.seqEstablish p) s = .next (finished .noAddr s)) ∧
    (s.sess = .idle ∨ s.sess = .found → s.status.opn = false → s.status.addrv = true →
      ∃ t es, exec (.seqEstablish p) s = .next t ∧ t.hist = s.hist ++ es ∧ t.addr = s.addr ∧ t.fport = s.fport ∧
        t.status.addrv = true ∧ sameCrc s t ∧ sameFrame s t ∧ sameOutside s t ∧
        ((t.status.res = .ok ∧ t.sess = .sessionReady ∧ t.status.auto = true ∧ t.status.opn = true ∧ t.port = p ∧
            t.status.fatal = s.status.fatal ∧ p.toNat < s.params.nports ∧
            ∃ r, es = modeExchange p.toNat s.addr r ∧
              contains [0x2C, 0x4D, 0x3D, 0x61] (r.take s.params.lbufMax) = true ∧ holdsLine t r) ∨
         (t.status.res = .setupFailed ∧ establishFailed s t ∧ t.port = p ∧ p.toNat < s.params.nports ∧
            ∃ r, es = modeExchange p.toNat s.addr r ++ [.close] ∧
              contains [0x2C, 0x4D, 0x3D, 0x61] (r.take s.params.lbufMax) = false ∧ holdsLine t r) ∨
         (t.status.res = .openFailed ∧ establishFailed s t ∧ sameLine s t ∧ t.status.vfy = s.status.vfy ∧
            t.port = s.port ∧ (es = [] ∧ s.params.nports ≤ p.toNat ∨
              es = [.openPort p.toNat 9600 false] ∧ p.toNat < s.params.nports))))

/-- R250: SEQ.CYCLE is a read of one line, and on an empty read cleared frame registers and EMPTY, else FRM.PROCESS on the
line read. The transport's queue is the model's (log 5). -/
def Obligations.SeqCycleReadsThenProcesses : Prop :=
  ∀ s : State, s.sess = .sessionReady →
    let l := nextLine s
    let u : State := { s with
      lbuf := l.take s.params.lbufMax
      hist := s.hist ++ [.readLine l]
      xpt := s.xpt.afterRead s.hist
      status := { s.status with
        ovf := decide (s.params.lbufMax < l.length), term := decide (l.getLast? = some 0x0A), vfy := false } }
    (l = [] → exec .seqCycle s = .next (finished .empty (frameCleared u))) ∧
    (l ≠ [] → exec .seqCycle s = exec .frmProcess u ∧ ∃ t, exec .seqCycle s = .next t)

/-- R251: the outcome of a cycle depends only on the line the transport returns and the parameters: two sessions that
get the same line get the same verdict, line, frame registers, tokens and events, and the same checksum where one was
computed: on CRC_MISMATCH, and wherever the line verified (R307), the OVERFLOW of a full token store included. -/
def Obligations.CyclesDependOnlyOnTheirLine : Prop :=
  ∀ s s' : State, s.sess = .sessionReady → s'.sess = .sessionReady → s.params = s'.params →
    nextLine s = nextLine s' →
    ∃ t t' es, exec .seqCycle s = .next t ∧ exec .seqCycle s' = .next t' ∧
      t.hist = s.hist ++ es ∧ t'.hist = s'.hist ++ es ∧
      t.status.res = t'.status.res ∧ t.status.vfy = t'.status.vfy ∧ sameLine t t' ∧ sameFrame t t' ∧
      (t.status.res ∈ [ResCode.ok, .crcMismatch, .unknownCode, .nonascii] ∨ t.status.vfy = true → sameCrc t t')

/-- R252: SEQ.SHUTDOWN in every state: the port closed if one is open, AUTO cleared, SESS back to IDLE but from a terminal
state; ADDR, ADDRV and FATAL are kept. -/
def Obligations.SeqShutdownEndsTheSession : Prop :=
  ∀ s : State,
    let q := if s.sess = .idle ∨ s.sess = .found ∨ s.sess = .sessionReady then Sess.idle else s.sess
    (s.status.opn = false → exec .seqShutdown s = .next (finished .ok
      { s with sess := q, status := { s.status with auto := false } })) ∧
    (s.status.opn = true → exec .seqShutdown s = .next (finished .ok
      { s with sess := q, hist := s.hist ++ [.close], status := { s.status with auto := false, opn := false } }))

/-! ## The whole machine -/

/-- R230, R274: a command the state table does not allow reports BAD_STATE and changes nothing else; and BAD_STATE is
reported only then, or by XPT.OPEN with a port open, or by SEQ.ESTABLISH in FOUND with a port open. The table has no column
for SCANNING and ESTABLISHING, which no command meets; the model's answer there is that of the pseudocode (log 8). -/
def Obligations.BadStateIsWhatTheTableSays : Prop :=
  ∀ (i : Instr) (s : State),
    (allowed i s.sess s.status.opn = false → exec i s = .next (finished .badState s)) ∧
    (allowed i s.sess s.status.opn = true → (s.status.opn = true → opcode i ≠ 0x50 ∧ opcode i ≠ 0x62) →
      ∃ t, exec i s = .next t ∧ t.status.res ≠ .badState)

/-- R64, R46, R81, R313: a command only appends to H, at most as many events as its bound says, and touches neither the
host's inputs nor the parameters. -/
def Obligations.CommandsAppendBoundedEvents : Prop :=
  ∀ (i : Instr) (s : State), ∃ t es, exec i s = .next t ∧ t.hist = s.hist ++ es ∧
    es.length ≤ eventBound s.params i ∧ sameOutside s t

/-- R272 (d), R276: a command error changes nothing but RES and BUSY. -/
def Obligations.CommandErrorsChangeOnlyRes : Prop :=
  ∀ (i : Instr) (s t : State), exec i s = .next t → t.status.res.commandError = true →
    t = finished t.status.res s

/-- R272 (a): a transient code leaves SESS, FATAL, OPEN, PORT, ADDR and ADDRV as they were, and no record is emitted. -/
def Obligations.TransientCodesLeaveTheSession : Prop :=
  ∀ (i : Instr) (s t : State), exec i s = .next t → t.status.res.transient = true →
    t.sess = s.sess ∧ t.status.fatal = s.status.fatal ∧ t.status.opn = s.status.opn ∧ t.port = s.port ∧
      t.addr = s.addr ∧ t.status.addrv = s.status.addrv ∧
      ∃ es, t.hist = s.hist ++ es ∧ ∀ e ∈ es, e.isEmit = false

/-- R272 (b): a setup failure has closed the transport, set FATAL and moved SESS to a terminal state. -/
def Obligations.SetupFailuresAreFatal : Prop :=
  ∀ (i : Instr) (s t : State), exec i s = .next t → setupFailure i t.status.res = true →
    t.status.opn = false ∧ t.status.fatal = true ∧ (t.sess = .notFound ∨ t.sess = .sessionFailed)

/-- R32, R35, R302: without a reset, FATAL stays set and a terminal state is never left. -/
def Obligations.OnlyResetLeavesATerminalState : Prop :=
  ∀ s t : State, noReset s → step s = .next t →
    (s.status.fatal = true → t.status.fatal = true) ∧
    (s.sess = .notFound ∨ s.sess = .sessionFailed → t.sess = s.sess)

/-- R23, R25, R35 to R43, R307, R308, R311: who writes what, command by command through its opcode (R92). ACC and CHK: the
CRC, FRM.VERIFY, FRM.PROCESS and SEQ.CYCLE commands. ADDR and ADDRV: the four commands, in IDLE. PORT: the four that open,
and it is that of the last successful open. FPORT: a discovery that ends FOUND. SESS: the SEQ commands but SEQ.CYCLE. The
frame registers: the three tokenizing commands. LBUF, TERM and OVF: the seven writers of the line, and a changed line
clears VFY but under SEQ.CYCLE, which judges it. VFY is set by a verification alone. AUTO, OPEN and FATAL: their rows of
R23. RES and BUSY: every command, through `finish` (R13). -/
def Obligations.RegistersHaveOnlyTheirWriters : Prop :=
  ∀ (i : Instr) (s t : State), exec i s = .next t →
    (¬ sameCrc s t → opcode i ∈ [0x10#8, 0x11#8, 0x12#8, 0x30#8, 0x32#8, 0x63#8]) ∧
    (t.addr ≠ s.addr ∨ t.status.addrv ≠ s.status.addrv →
      s.sess = .idle ∧ opcode i ∈ [0x58#8, 0x48#8, 0x60#8, 0x61#8]) ∧
    (t.port ≠ s.port → opcode i ∈ [0x50#8, 0x60#8, 0x61#8, 0x62#8]) ∧
    (∃ es, t.hist = s.hist ++ es ∧ portFollows s t es) ∧
    (t.fport ≠ s.fport → t.sess = .found ∧ opcode i ∈ [0x60#8, 0x61#8]) ∧
    (t.sess ≠ s.sess → opcode i ∈ [0x60#8, 0x61#8, 0x62#8, 0x64#8]) ∧
    (¬ sameFrame s t → opcode i ∈ [0x31#8, 0x32#8, 0x63#8]) ∧
    (¬ sameLine s t → opcode i ∈ [0x20#8, 0x21#8, 0x22#8, 0x60#8, 0x61#8, 0x62#8, 0x63#8]) ∧
    (t.lbuf ≠ s.lbuf → t.status.vfy = false ∨ opcode i = 0x63) ∧
    (s.status.vfy = false → t.status.vfy = true → opcode i ∈ [0x30#8, 0x32#8, 0x63#8]) ∧
    (s.status.vfy = true → t.status.vfy = false →
      opcode i ∈ [0x30#8, 0x32#8, 0x63#8, 0x20#8, 0x21#8, 0x22#8, 0x60#8, 0x61#8, 0x62#8]) ∧
    (s.status.auto = false → t.status.auto = true → opcode i = 0x62) ∧
    (s.status.auto = true → t.status.auto = false → opcode i = 0x64) ∧
    (t.status.opn ≠ s.status.opn → opcode i ∈ [0x50#8, 0x53#8, 0x60#8, 0x61#8, 0x62#8, 0x64#8]) ∧
    (t.status.fatal ≠ s.status.fatal → t.status.fatal = true ∧ opcode i ∈ [0x61#8, 0x62#8])

/-- R75: the local commands touch neither the transport nor the session; only FRM.PROCESS leaves an event, one record,
and only with OK. -/
def Obligations.LocalCommandsStayInside : Prop :=
  ∀ (i : Instr) (s : State), localCommand i = true →
    ∃ t, exec i s = .next t ∧ t.xpt = s.xpt ∧ t.sess = s.sess ∧ t.status.opn = s.status.opn ∧
      t.port = s.port ∧ t.fport = s.fport ∧ t.addr = s.addr ∧ t.status.addrv = s.status.addrv ∧
      t.status.auto = s.status.auto ∧ t.status.fatal = s.status.fatal ∧
      (t.hist = s.hist ∨ (i = .frmProcess ∧ t.status.res = .ok ∧ t.hist = s.hist ++ [.emit (tokenRecord t)]))

/-- R231, R33, R35: the session invariants are kept by every step. -/
def Obligations.SessionInvariantIsKept : Prop :=
  ∀ s t : State, SessionInv s → step s = .next t → SessionInv t

/-- R41, R43: LBUF and the token store keep their capacities in every step. -/
def Obligations.StoreCapacitiesAreKept : Prop :=
  ∀ s t : State, Memory.wf s → step s = .next t → Memory.wf t

/-- R25, R31: VFY = 1 always describes the line in LBUF. -/
def Obligations.VerifiedFlagDescribesTheLine : Prop :=
  ∀ s t : State, VerifiedInv s → step s = .next t → VerifiedInv t

/-- R29, R37, R179: MTYPE agrees with the header registers, and CHK0 to CHK2 stay in the range of a packed checksum. -/
def Obligations.HeaderAndChecksumRegistersStayLegal : Prop :=
  ∀ s t : State, step s = .next t → (HeaderInv s → HeaderInv t) ∧ (ChkInv s → ChkInv t)

/-- R26, R39: with legal parameters, PORT names a candidate port whenever a port is open. -/
def Obligations.OpenPortIsACandidate : Prop :=
  ∀ s t : State, s.params.wf = true → PortInv s → step s = .next t → t.params = s.params ∧ PortInv t

/-- R26, R66, R72: H uses the transport only as the rules allow (one port at a time, nothing while closed), and OPEN is
what H makes it; kept by every step together with the session invariants. -/
def Obligations.HistoryObeysTheTransportRules : Prop :=
  ∀ s t : State, SessionInv s → HistoryInv s → step s = .next t → HistoryInv t

/-- R67, R69, R73, R100: every event of H keeps the rules of its data. -/
def Obligations.EventsStayLegal : Prop :=
  ∀ s t : State, EventsInv s → step s = .next t → EventsInv t

/-- R47, R301: the invariants hold after reset. That the reset parameters are those of S0 is the model's choice (log 1). -/
def Obligations.ResetMeetsTheInvariants : Prop :=
  SessionInv State.reset ∧ Memory.wf State.reset ∧ VerifiedInv State.reset ∧ HeaderInv State.reset ∧
    ChkInv State.reset ∧ PortInv State.reset ∧ HistoryInv State.reset ∧ EventsInv State.reset ∧
    State.reset.params.wf = true

/-! ## The host's view -/

/-- R34: bit 15 of STATUS reads 0, and R23: every other field stands at its bits, RES with the values of R271 and MTYPE with
those of R29. -/
def Obligations.StatusWordHasItsLayout : Prop :=
  ∀ t : Status, t.word.getLsbD 15 = false ∧ (t.word.extractLsb' 0 4).toNat = resValue t.res ∧
    t.word.getLsbD 4 = t.vfy ∧ t.word.getLsbD 5 = t.opn ∧ t.word.getLsbD 6 = t.addrv ∧ t.word.getLsbD 7 = t.auto ∧
    (t.word.extractLsb' 8 3).toNat = mtypeValue t.mtype ∧ t.word.getLsbD 11 = t.term ∧ t.word.getLsbD 12 = t.ovf ∧
    t.word.getLsbD 13 = t.fatal ∧ t.word.getLsbD 14 = t.busy

/-- R20, R22, R35: each register number reads its register, the reserved ones 0, SESS with the values of R35; LBUF and TOK
read their bytes and entries below LLEN and NTOK, 0x00 and two empty sequences at and above them. That LLEN and NTOK are
the lengths of lists is the model's (log 6). -/
def Obligations.HostReadsFollowTheRegisterMap : Prop :=
  ∀ s : State,
    (rdReg 0x00 s = s.status.word ∧ (rdReg 0x01 s).toNat = sessValue s.sess ∧ rdReg 0x02 s = s.acc ∧
      (rdReg 0x03 s).toNat = s.chk0.toNat ∧ (rdReg 0x04 s).toNat = s.chk1.toNat ∧
      (rdReg 0x05 s).toNat = s.chk2.toNat ∧ (rdReg 0x06 s).toNat = s.addr.toNat ∧
      (rdReg 0x07 s).toNat = s.port.toNat ∧ (rdReg 0x08 s).toNat = s.fport.toNat ∧
      (s.lbuf.length ≤ 65535 → (rdReg 0x09 s).toNat = s.lbuf.length) ∧
      (rdReg 0x0A s).toNat = s.haddr.toNat ∧ (rdReg 0x0B s).toNat = s.hcode0.toNat ∧
      (rdReg 0x0C s).toNat = s.hcode1.toNat ∧ rdReg 0x0D s = s.hlen ∧
      (s.tok.length ≤ 65535 → (rdReg 0x0E s).toNat = s.tok.length) ∧
      ∀ n : Byte, 0x0F ≤ n.toNat → rdReg n s = 0) ∧
    (∀ k, k < s.lbuf.length → s.lbuf[k]? = some (rdLbuf k s)) ∧
    (∀ k, s.lbuf.length ≤ k → rdLbuf k s = 0x00) ∧
    (∀ k, k < s.tok.length → s.tok[k]? = some (rdTok k s)) ∧
    (∀ k, s.tok.length ≤ k → rdTok k s = { label := [], value := [] })

/-- R22, R74, R312: while a command runs, the host sees BUSY = 1 and perhaps a new SESS, and otherwise the registers, line
and tokens of before the command: of the two readings the spec offers the model takes this one (log 4). -/
def Obligations.RunningCommandShowsOnlyBusyAndSess : Prop :=
  ∀ (i : Instr) (s v : State), v ∈ busyViews i s →
    v.status.busy = true ∧ v.status.word = s.status.word ||| 0x4000 ∧
    (∀ n : Byte, n ≠ 0 → n ≠ 1 → rdReg n v = rdReg n s) ∧ (∀ k, rdLbuf k v = rdLbuf k s) ∧
    (∀ k, rdTok k v = rdTok k s) ∧ (v.sess = s.sess ∨ v.sess = .scanning ∨ v.sess = .establishing)

/-- R285: a step of one instance changes no other instance. -/
def Obligations.InstancesDoNotTouchEachOther : Prop :=
  ∀ (sys sys' : List State) (k : Nat), stepInstance k sys = some sys' →
    sys'.length = sys.length ∧ ∀ j, j ≠ k → sys'[j]? = sys[j]?
end

