-- ==== Sys2Proof/Laws/Checksum.lean ====
section
/-! SUPPORT. The checksum arithmetic in numbers (41_crc.md R120 to R122): a shift, the three packed bytes, and how the CRC
grows with the sequence. -/

namespace Sys2Proof.Machine

/-- One shift of the CRC step as arithmetic on numbers (R120). -/
theorem toNat_crcShift (a : Word) :
    (crcShift a).toNat = if a.toNat % 2 = 1 then (a.toNat / 2) ^^^ 0xA001 else a.toNat / 2 := by
  have h : a.getLsbD 0 = decide (a.toNat % 2 = 1) := by simp [BitVec.getLsbD, Nat.testBit_zero]
  unfold crcShift
  rw [h]
  by_cases hb : a.toNat % 2 = 1 <;> simp [hb, BitVec.toNat_xor, Nat.shiftRight_eq_div_pow]

/-- The CRC of a sequence with one byte more (R121). -/
theorem crc16_append_singleton (s : Bytes) (b : Byte) : crc16 (s ++ [b]) = crcStep (crc16 s) b := by
  simp [crc16]

/-- The CRC of two sequences one after the other goes on from the first's (R121). -/
theorem crc16_append (s t : Bytes) : crc16 (s ++ t) = t.foldl crcStep (crc16 s) := by
  simp [crc16]

/-- byte0 of the checksum as a number (R122). -/
theorem toNat_pack0 (c : Word) : (pack0 c).toNat = 0x40 ||| (c.extractLsb' 12 4).toNat := by
  have h : (c.extractLsb' 12 4).toNat < 2 ^ 8 := lt_trans (c.extractLsb' 12 4).isLt (by decide)
  rw [pack0, BitVec.toNat_or, BitVec.toNat_setWidth, Nat.mod_eq_of_lt h]; rfl

/-- byte1 of the checksum as a number (R122). -/
theorem toNat_pack1 (c : Word) : (pack1 c).toNat = 0x40 ||| (c.extractLsb' 6 6).toNat := by
  have h : (c.extractLsb' 6 6).toNat < 2 ^ 8 := lt_trans (c.extractLsb' 6 6).isLt (by decide)
  rw [pack1, BitVec.toNat_or, BitVec.toNat_setWidth, Nat.mod_eq_of_lt h]; rfl

/-- byte2 of the checksum as a number (R122). -/
theorem toNat_pack2 (c : Word) : (pack2 c).toNat = 0x40 ||| (c.extractLsb' 0 6).toNat := by
  have h : (c.extractLsb' 0 6).toNat < 2 ^ 8 := lt_trans (c.extractLsb' 0 6).isLt (by decide)
  rw [pack2, BitVec.toNat_or, BitVec.toNat_setWidth, Nat.mod_eq_of_lt h]; rfl

/-- A packed checksum has three bytes (R122). -/
@[simp] theorem pack_length (c : Word) : (pack c).length = 3 := rfl

end Sys2Proof.Machine
end

