-- ==== Sys2Proof/Laws/State.lean ====
section
/-! SUPPORT. One lemma per field per update of the state: what a named update does to each field. All true by rfl. -/

namespace Sys2Proof.Machine

/-! accept -/

@[simp] theorem accept_status (s : State) : (accept s).status = { s.status with busy := true } := rfl
@[simp] theorem accept_sess (s : State) : (accept s).sess = s.sess := rfl
@[simp] theorem accept_acc (s : State) : (accept s).acc = s.acc := rfl
@[simp] theorem accept_chk0 (s : State) : (accept s).chk0 = s.chk0 := rfl
@[simp] theorem accept_chk1 (s : State) : (accept s).chk1 = s.chk1 := rfl
@[simp] theorem accept_chk2 (s : State) : (accept s).chk2 = s.chk2 := rfl
@[simp] theorem accept_addr (s : State) : (accept s).addr = s.addr := rfl
@[simp] theorem accept_port (s : State) : (accept s).port = s.port := rfl
@[simp] theorem accept_fport (s : State) : (accept s).fport = s.fport := rfl
@[simp] theorem accept_lbuf (s : State) : (accept s).lbuf = s.lbuf := rfl
@[simp] theorem accept_haddr (s : State) : (accept s).haddr = s.haddr := rfl
@[simp] theorem accept_hcode0 (s : State) : (accept s).hcode0 = s.hcode0 := rfl
@[simp] theorem accept_hcode1 (s : State) : (accept s).hcode1 = s.hcode1 := rfl
@[simp] theorem accept_hlen (s : State) : (accept s).hlen = s.hlen := rfl
@[simp] theorem accept_tok (s : State) : (accept s).tok = s.tok := rfl
@[simp] theorem accept_hist (s : State) : (accept s).hist = s.hist := rfl
@[simp] theorem accept_xpt (s : State) : (accept s).xpt = s.xpt := rfl
@[simp] theorem accept_host (s : State) : (accept s).host = s.host := rfl
@[simp] theorem accept_params (s : State) : (accept s).params = s.params := rfl

/-! finished -/

@[simp] theorem finished_status (c : ResCode) (s : State) : (finished c s).status = { s.status with res := c, busy := false } := rfl
@[simp] theorem finished_sess (c : ResCode) (s : State) : (finished c s).sess = s.sess := rfl
@[simp] theorem finished_acc (c : ResCode) (s : State) : (finished c s).acc = s.acc := rfl
@[simp] theorem finished_chk0 (c : ResCode) (s : State) : (finished c s).chk0 = s.chk0 := rfl
@[simp] theorem finished_chk1 (c : ResCode) (s : State) : (finished c s).chk1 = s.chk1 := rfl
@[simp] theorem finished_chk2 (c : ResCode) (s : State) : (finished c s).chk2 = s.chk2 := rfl
@[simp] theorem finished_addr (c : ResCode) (s : State) : (finished c s).addr = s.addr := rfl
@[simp] theorem finished_port (c : ResCode) (s : State) : (finished c s).port = s.port := rfl
@[simp] theorem finished_fport (c : ResCode) (s : State) : (finished c s).fport = s.fport := rfl
@[simp] theorem finished_lbuf (c : ResCode) (s : State) : (finished c s).lbuf = s.lbuf := rfl
@[simp] theorem finished_haddr (c : ResCode) (s : State) : (finished c s).haddr = s.haddr := rfl
@[simp] theorem finished_hcode0 (c : ResCode) (s : State) : (finished c s).hcode0 = s.hcode0 := rfl
@[simp] theorem finished_hcode1 (c : ResCode) (s : State) : (finished c s).hcode1 = s.hcode1 := rfl
@[simp] theorem finished_hlen (c : ResCode) (s : State) : (finished c s).hlen = s.hlen := rfl
@[simp] theorem finished_tok (c : ResCode) (s : State) : (finished c s).tok = s.tok := rfl
@[simp] theorem finished_hist (c : ResCode) (s : State) : (finished c s).hist = s.hist := rfl
@[simp] theorem finished_xpt (c : ResCode) (s : State) : (finished c s).xpt = s.xpt := rfl
@[simp] theorem finished_host (c : ResCode) (s : State) : (finished c s).host = s.host := rfl
@[simp] theorem finished_params (c : ResCode) (s : State) : (finished c s).params = s.params := rfl

/-! setVfy -/

@[simp] theorem setVfy_status (b : Bool) (s : State) : (setVfy b s).status = { s.status with vfy := b } := rfl
@[simp] theorem setVfy_sess (b : Bool) (s : State) : (setVfy b s).sess = s.sess := rfl
@[simp] theorem setVfy_acc (b : Bool) (s : State) : (setVfy b s).acc = s.acc := rfl
@[simp] theorem setVfy_chk0 (b : Bool) (s : State) : (setVfy b s).chk0 = s.chk0 := rfl
@[simp] theorem setVfy_chk1 (b : Bool) (s : State) : (setVfy b s).chk1 = s.chk1 := rfl
@[simp] theorem setVfy_chk2 (b : Bool) (s : State) : (setVfy b s).chk2 = s.chk2 := rfl
@[simp] theorem setVfy_addr (b : Bool) (s : State) : (setVfy b s).addr = s.addr := rfl
@[simp] theorem setVfy_port (b : Bool) (s : State) : (setVfy b s).port = s.port := rfl
@[simp] theorem setVfy_fport (b : Bool) (s : State) : (setVfy b s).fport = s.fport := rfl
@[simp] theorem setVfy_lbuf (b : Bool) (s : State) : (setVfy b s).lbuf = s.lbuf := rfl
@[simp] theorem setVfy_haddr (b : Bool) (s : State) : (setVfy b s).haddr = s.haddr := rfl
@[simp] theorem setVfy_hcode0 (b : Bool) (s : State) : (setVfy b s).hcode0 = s.hcode0 := rfl
@[simp] theorem setVfy_hcode1 (b : Bool) (s : State) : (setVfy b s).hcode1 = s.hcode1 := rfl
@[simp] theorem setVfy_hlen (b : Bool) (s : State) : (setVfy b s).hlen = s.hlen := rfl
@[simp] theorem setVfy_tok (b : Bool) (s : State) : (setVfy b s).tok = s.tok := rfl
@[simp] theorem setVfy_hist (b : Bool) (s : State) : (setVfy b s).hist = s.hist := rfl
@[simp] theorem setVfy_xpt (b : Bool) (s : State) : (setVfy b s).xpt = s.xpt := rfl
@[simp] theorem setVfy_host (b : Bool) (s : State) : (setVfy b s).host = s.host := rfl
@[simp] theorem setVfy_params (b : Bool) (s : State) : (setVfy b s).params = s.params := rfl

/-! setSess -/

@[simp] theorem setSess_status (q : Sess) (s : State) : (setSess q s).status = s.status := rfl
@[simp] theorem setSess_sess (q : Sess) (s : State) : (setSess q s).sess = q := rfl
@[simp] theorem setSess_acc (q : Sess) (s : State) : (setSess q s).acc = s.acc := rfl
@[simp] theorem setSess_chk0 (q : Sess) (s : State) : (setSess q s).chk0 = s.chk0 := rfl
@[simp] theorem setSess_chk1 (q : Sess) (s : State) : (setSess q s).chk1 = s.chk1 := rfl
@[simp] theorem setSess_chk2 (q : Sess) (s : State) : (setSess q s).chk2 = s.chk2 := rfl
@[simp] theorem setSess_addr (q : Sess) (s : State) : (setSess q s).addr = s.addr := rfl
@[simp] theorem setSess_port (q : Sess) (s : State) : (setSess q s).port = s.port := rfl
@[simp] theorem setSess_fport (q : Sess) (s : State) : (setSess q s).fport = s.fport := rfl
@[simp] theorem setSess_lbuf (q : Sess) (s : State) : (setSess q s).lbuf = s.lbuf := rfl
@[simp] theorem setSess_haddr (q : Sess) (s : State) : (setSess q s).haddr = s.haddr := rfl
@[simp] theorem setSess_hcode0 (q : Sess) (s : State) : (setSess q s).hcode0 = s.hcode0 := rfl
@[simp] theorem setSess_hcode1 (q : Sess) (s : State) : (setSess q s).hcode1 = s.hcode1 := rfl
@[simp] theorem setSess_hlen (q : Sess) (s : State) : (setSess q s).hlen = s.hlen := rfl
@[simp] theorem setSess_tok (q : Sess) (s : State) : (setSess q s).tok = s.tok := rfl
@[simp] theorem setSess_hist (q : Sess) (s : State) : (setSess q s).hist = s.hist := rfl
@[simp] theorem setSess_xpt (q : Sess) (s : State) : (setSess q s).xpt = s.xpt := rfl
@[simp] theorem setSess_host (q : Sess) (s : State) : (setSess q s).host = s.host := rfl
@[simp] theorem setSess_params (q : Sess) (s : State) : (setSess q s).params = s.params := rfl

/-! setAddrv -/

@[simp] theorem setAddrv_status (b : Bool) (s : State) : (setAddrv b s).status = { s.status with addrv := b } := rfl
@[simp] theorem setAddrv_sess (b : Bool) (s : State) : (setAddrv b s).sess = s.sess := rfl
@[simp] theorem setAddrv_acc (b : Bool) (s : State) : (setAddrv b s).acc = s.acc := rfl
@[simp] theorem setAddrv_chk0 (b : Bool) (s : State) : (setAddrv b s).chk0 = s.chk0 := rfl
@[simp] theorem setAddrv_chk1 (b : Bool) (s : State) : (setAddrv b s).chk1 = s.chk1 := rfl
@[simp] theorem setAddrv_chk2 (b : Bool) (s : State) : (setAddrv b s).chk2 = s.chk2 := rfl
@[simp] theorem setAddrv_addr (b : Bool) (s : State) : (setAddrv b s).addr = s.addr := rfl
@[simp] theorem setAddrv_port (b : Bool) (s : State) : (setAddrv b s).port = s.port := rfl
@[simp] theorem setAddrv_fport (b : Bool) (s : State) : (setAddrv b s).fport = s.fport := rfl
@[simp] theorem setAddrv_lbuf (b : Bool) (s : State) : (setAddrv b s).lbuf = s.lbuf := rfl
@[simp] theorem setAddrv_haddr (b : Bool) (s : State) : (setAddrv b s).haddr = s.haddr := rfl
@[simp] theorem setAddrv_hcode0 (b : Bool) (s : State) : (setAddrv b s).hcode0 = s.hcode0 := rfl
@[simp] theorem setAddrv_hcode1 (b : Bool) (s : State) : (setAddrv b s).hcode1 = s.hcode1 := rfl
@[simp] theorem setAddrv_hlen (b : Bool) (s : State) : (setAddrv b s).hlen = s.hlen := rfl
@[simp] theorem setAddrv_tok (b : Bool) (s : State) : (setAddrv b s).tok = s.tok := rfl
@[simp] theorem setAddrv_hist (b : Bool) (s : State) : (setAddrv b s).hist = s.hist := rfl
@[simp] theorem setAddrv_xpt (b : Bool) (s : State) : (setAddrv b s).xpt = s.xpt := rfl
@[simp] theorem setAddrv_host (b : Bool) (s : State) : (setAddrv b s).host = s.host := rfl
@[simp] theorem setAddrv_params (b : Bool) (s : State) : (setAddrv b s).params = s.params := rfl

/-! setAddr -/

@[simp] theorem setAddr_status (a : Byte) (s : State) : (setAddr a s).status = { s.status with addrv := true } := rfl
@[simp] theorem setAddr_sess (a : Byte) (s : State) : (setAddr a s).sess = s.sess := rfl
@[simp] theorem setAddr_acc (a : Byte) (s : State) : (setAddr a s).acc = s.acc := rfl
@[simp] theorem setAddr_chk0 (a : Byte) (s : State) : (setAddr a s).chk0 = s.chk0 := rfl
@[simp] theorem setAddr_chk1 (a : Byte) (s : State) : (setAddr a s).chk1 = s.chk1 := rfl
@[simp] theorem setAddr_chk2 (a : Byte) (s : State) : (setAddr a s).chk2 = s.chk2 := rfl
@[simp] theorem setAddr_addr (a : Byte) (s : State) : (setAddr a s).addr = a := rfl
@[simp] theorem setAddr_port (a : Byte) (s : State) : (setAddr a s).port = s.port := rfl
@[simp] theorem setAddr_fport (a : Byte) (s : State) : (setAddr a s).fport = s.fport := rfl
@[simp] theorem setAddr_lbuf (a : Byte) (s : State) : (setAddr a s).lbuf = s.lbuf := rfl
@[simp] theorem setAddr_haddr (a : Byte) (s : State) : (setAddr a s).haddr = s.haddr := rfl
@[simp] theorem setAddr_hcode0 (a : Byte) (s : State) : (setAddr a s).hcode0 = s.hcode0 := rfl
@[simp] theorem setAddr_hcode1 (a : Byte) (s : State) : (setAddr a s).hcode1 = s.hcode1 := rfl
@[simp] theorem setAddr_hlen (a : Byte) (s : State) : (setAddr a s).hlen = s.hlen := rfl
@[simp] theorem setAddr_tok (a : Byte) (s : State) : (setAddr a s).tok = s.tok := rfl
@[simp] theorem setAddr_hist (a : Byte) (s : State) : (setAddr a s).hist = s.hist := rfl
@[simp] theorem setAddr_xpt (a : Byte) (s : State) : (setAddr a s).xpt = s.xpt := rfl
@[simp] theorem setAddr_host (a : Byte) (s : State) : (setAddr a s).host = s.host := rfl
@[simp] theorem setAddr_params (a : Byte) (s : State) : (setAddr a s).params = s.params := rfl

/-! setAuto -/

@[simp] theorem setAuto_status (b : Bool) (s : State) : (setAuto b s).status = { s.status with auto := b } := rfl
@[simp] theorem setAuto_sess (b : Bool) (s : State) : (setAuto b s).sess = s.sess := rfl
@[simp] theorem setAuto_acc (b : Bool) (s : State) : (setAuto b s).acc = s.acc := rfl
@[simp] theorem setAuto_chk0 (b : Bool) (s : State) : (setAuto b s).chk0 = s.chk0 := rfl
@[simp] theorem setAuto_chk1 (b : Bool) (s : State) : (setAuto b s).chk1 = s.chk1 := rfl
@[simp] theorem setAuto_chk2 (b : Bool) (s : State) : (setAuto b s).chk2 = s.chk2 := rfl
@[simp] theorem setAuto_addr (b : Bool) (s : State) : (setAuto b s).addr = s.addr := rfl
@[simp] theorem setAuto_port (b : Bool) (s : State) : (setAuto b s).port = s.port := rfl
@[simp] theorem setAuto_fport (b : Bool) (s : State) : (setAuto b s).fport = s.fport := rfl
@[simp] theorem setAuto_lbuf (b : Bool) (s : State) : (setAuto b s).lbuf = s.lbuf := rfl
@[simp] theorem setAuto_haddr (b : Bool) (s : State) : (setAuto b s).haddr = s.haddr := rfl
@[simp] theorem setAuto_hcode0 (b : Bool) (s : State) : (setAuto b s).hcode0 = s.hcode0 := rfl
@[simp] theorem setAuto_hcode1 (b : Bool) (s : State) : (setAuto b s).hcode1 = s.hcode1 := rfl
@[simp] theorem setAuto_hlen (b : Bool) (s : State) : (setAuto b s).hlen = s.hlen := rfl
@[simp] theorem setAuto_tok (b : Bool) (s : State) : (setAuto b s).tok = s.tok := rfl
@[simp] theorem setAuto_hist (b : Bool) (s : State) : (setAuto b s).hist = s.hist := rfl
@[simp] theorem setAuto_xpt (b : Bool) (s : State) : (setAuto b s).xpt = s.xpt := rfl
@[simp] theorem setAuto_host (b : Bool) (s : State) : (setAuto b s).host = s.host := rfl
@[simp] theorem setAuto_params (b : Bool) (s : State) : (setAuto b s).params = s.params := rfl

/-! setFatal -/

@[simp] theorem setFatal_status (q : Sess) (s : State) : (setFatal q s).status = { s.status with fatal := true } := rfl
@[simp] theorem setFatal_sess (q : Sess) (s : State) : (setFatal q s).sess = q := rfl
@[simp] theorem setFatal_acc (q : Sess) (s : State) : (setFatal q s).acc = s.acc := rfl
@[simp] theorem setFatal_chk0 (q : Sess) (s : State) : (setFatal q s).chk0 = s.chk0 := rfl
@[simp] theorem setFatal_chk1 (q : Sess) (s : State) : (setFatal q s).chk1 = s.chk1 := rfl
@[simp] theorem setFatal_chk2 (q : Sess) (s : State) : (setFatal q s).chk2 = s.chk2 := rfl
@[simp] theorem setFatal_addr (q : Sess) (s : State) : (setFatal q s).addr = s.addr := rfl
@[simp] theorem setFatal_port (q : Sess) (s : State) : (setFatal q s).port = s.port := rfl
@[simp] theorem setFatal_fport (q : Sess) (s : State) : (setFatal q s).fport = s.fport := rfl
@[simp] theorem setFatal_lbuf (q : Sess) (s : State) : (setFatal q s).lbuf = s.lbuf := rfl
@[simp] theorem setFatal_haddr (q : Sess) (s : State) : (setFatal q s).haddr = s.haddr := rfl
@[simp] theorem setFatal_hcode0 (q : Sess) (s : State) : (setFatal q s).hcode0 = s.hcode0 := rfl
@[simp] theorem setFatal_hcode1 (q : Sess) (s : State) : (setFatal q s).hcode1 = s.hcode1 := rfl
@[simp] theorem setFatal_hlen (q : Sess) (s : State) : (setFatal q s).hlen = s.hlen := rfl
@[simp] theorem setFatal_tok (q : Sess) (s : State) : (setFatal q s).tok = s.tok := rfl
@[simp] theorem setFatal_hist (q : Sess) (s : State) : (setFatal q s).hist = s.hist := rfl
@[simp] theorem setFatal_xpt (q : Sess) (s : State) : (setFatal q s).xpt = s.xpt := rfl
@[simp] theorem setFatal_host (q : Sess) (s : State) : (setFatal q s).host = s.host := rfl
@[simp] theorem setFatal_params (q : Sess) (s : State) : (setFatal q s).params = s.params := rfl

/-! setFound -/

@[simp] theorem setFound_status (p : Nat) (s : State) : (setFound p s).status = s.status := rfl
@[simp] theorem setFound_sess (p : Nat) (s : State) : (setFound p s).sess = .found := rfl
@[simp] theorem setFound_acc (p : Nat) (s : State) : (setFound p s).acc = s.acc := rfl
@[simp] theorem setFound_chk0 (p : Nat) (s : State) : (setFound p s).chk0 = s.chk0 := rfl
@[simp] theorem setFound_chk1 (p : Nat) (s : State) : (setFound p s).chk1 = s.chk1 := rfl
@[simp] theorem setFound_chk2 (p : Nat) (s : State) : (setFound p s).chk2 = s.chk2 := rfl
@[simp] theorem setFound_addr (p : Nat) (s : State) : (setFound p s).addr = s.addr := rfl
@[simp] theorem setFound_port (p : Nat) (s : State) : (setFound p s).port = s.port := rfl
@[simp] theorem setFound_fport (p : Nat) (s : State) : (setFound p s).fport = portByte p := rfl
@[simp] theorem setFound_lbuf (p : Nat) (s : State) : (setFound p s).lbuf = s.lbuf := rfl
@[simp] theorem setFound_haddr (p : Nat) (s : State) : (setFound p s).haddr = s.haddr := rfl
@[simp] theorem setFound_hcode0 (p : Nat) (s : State) : (setFound p s).hcode0 = s.hcode0 := rfl
@[simp] theorem setFound_hcode1 (p : Nat) (s : State) : (setFound p s).hcode1 = s.hcode1 := rfl
@[simp] theorem setFound_hlen (p : Nat) (s : State) : (setFound p s).hlen = s.hlen := rfl
@[simp] theorem setFound_tok (p : Nat) (s : State) : (setFound p s).tok = s.tok := rfl
@[simp] theorem setFound_hist (p : Nat) (s : State) : (setFound p s).hist = s.hist := rfl
@[simp] theorem setFound_xpt (p : Nat) (s : State) : (setFound p s).xpt = s.xpt := rfl
@[simp] theorem setFound_host (p : Nat) (s : State) : (setFound p s).host = s.host := rfl
@[simp] theorem setFound_params (p : Nat) (s : State) : (setFound p s).params = s.params := rfl

/-! setChk -/

@[simp] theorem setChk_status (c : Word) (s : State) : (setChk c s).status = s.status := rfl
@[simp] theorem setChk_sess (c : Word) (s : State) : (setChk c s).sess = s.sess := rfl
@[simp] theorem setChk_acc (c : Word) (s : State) : (setChk c s).acc = s.acc := rfl
@[simp] theorem setChk_chk0 (c : Word) (s : State) : (setChk c s).chk0 = pack0 c := rfl
@[simp] theorem setChk_chk1 (c : Word) (s : State) : (setChk c s).chk1 = pack1 c := rfl
@[simp] theorem setChk_chk2 (c : Word) (s : State) : (setChk c s).chk2 = pack2 c := rfl
@[simp] theorem setChk_addr (c : Word) (s : State) : (setChk c s).addr = s.addr := rfl
@[simp] theorem setChk_port (c : Word) (s : State) : (setChk c s).port = s.port := rfl
@[simp] theorem setChk_fport (c : Word) (s : State) : (setChk c s).fport = s.fport := rfl
@[simp] theorem setChk_lbuf (c : Word) (s : State) : (setChk c s).lbuf = s.lbuf := rfl
@[simp] theorem setChk_haddr (c : Word) (s : State) : (setChk c s).haddr = s.haddr := rfl
@[simp] theorem setChk_hcode0 (c : Word) (s : State) : (setChk c s).hcode0 = s.hcode0 := rfl
@[simp] theorem setChk_hcode1 (c : Word) (s : State) : (setChk c s).hcode1 = s.hcode1 := rfl
@[simp] theorem setChk_hlen (c : Word) (s : State) : (setChk c s).hlen = s.hlen := rfl
@[simp] theorem setChk_tok (c : Word) (s : State) : (setChk c s).tok = s.tok := rfl
@[simp] theorem setChk_hist (c : Word) (s : State) : (setChk c s).hist = s.hist := rfl
@[simp] theorem setChk_xpt (c : Word) (s : State) : (setChk c s).xpt = s.xpt := rfl
@[simp] theorem setChk_host (c : Word) (s : State) : (setChk c s).host = s.host := rfl
@[simp] theorem setChk_params (c : Word) (s : State) : (setChk c s).params = s.params := rfl

/-! setCrc -/

@[simp] theorem setCrc_status (c : Word) (s : State) : (setCrc c s).status = s.status := rfl
@[simp] theorem setCrc_sess (c : Word) (s : State) : (setCrc c s).sess = s.sess := rfl
@[simp] theorem setCrc_acc (c : Word) (s : State) : (setCrc c s).acc = c := rfl
@[simp] theorem setCrc_chk0 (c : Word) (s : State) : (setCrc c s).chk0 = pack0 c := rfl
@[simp] theorem setCrc_chk1 (c : Word) (s : State) : (setCrc c s).chk1 = pack1 c := rfl
@[simp] theorem setCrc_chk2 (c : Word) (s : State) : (setCrc c s).chk2 = pack2 c := rfl
@[simp] theorem setCrc_addr (c : Word) (s : State) : (setCrc c s).addr = s.addr := rfl
@[simp] theorem setCrc_port (c : Word) (s : State) : (setCrc c s).port = s.port := rfl
@[simp] theorem setCrc_fport (c : Word) (s : State) : (setCrc c s).fport = s.fport := rfl
@[simp] theorem setCrc_lbuf (c : Word) (s : State) : (setCrc c s).lbuf = s.lbuf := rfl
@[simp] theorem setCrc_haddr (c : Word) (s : State) : (setCrc c s).haddr = s.haddr := rfl
@[simp] theorem setCrc_hcode0 (c : Word) (s : State) : (setCrc c s).hcode0 = s.hcode0 := rfl
@[simp] theorem setCrc_hcode1 (c : Word) (s : State) : (setCrc c s).hcode1 = s.hcode1 := rfl
@[simp] theorem setCrc_hlen (c : Word) (s : State) : (setCrc c s).hlen = s.hlen := rfl
@[simp] theorem setCrc_tok (c : Word) (s : State) : (setCrc c s).tok = s.tok := rfl
@[simp] theorem setCrc_hist (c : Word) (s : State) : (setCrc c s).hist = s.hist := rfl
@[simp] theorem setCrc_xpt (c : Word) (s : State) : (setCrc c s).xpt = s.xpt := rfl
@[simp] theorem setCrc_host (c : Word) (s : State) : (setCrc c s).host = s.host := rfl
@[simp] theorem setCrc_params (c : Word) (s : State) : (setCrc c s).params = s.params := rfl

/-! lineEmpty -/

@[simp] theorem lineEmpty_status (s : State) : (lineEmpty s).status = { s.status with ovf := false } := rfl
@[simp] theorem lineEmpty_sess (s : State) : (lineEmpty s).sess = s.sess := rfl
@[simp] theorem lineEmpty_acc (s : State) : (lineEmpty s).acc = s.acc := rfl
@[simp] theorem lineEmpty_chk0 (s : State) : (lineEmpty s).chk0 = s.chk0 := rfl
@[simp] theorem lineEmpty_chk1 (s : State) : (lineEmpty s).chk1 = s.chk1 := rfl
@[simp] theorem lineEmpty_chk2 (s : State) : (lineEmpty s).chk2 = s.chk2 := rfl
@[simp] theorem lineEmpty_addr (s : State) : (lineEmpty s).addr = s.addr := rfl
@[simp] theorem lineEmpty_port (s : State) : (lineEmpty s).port = s.port := rfl
@[simp] theorem lineEmpty_fport (s : State) : (lineEmpty s).fport = s.fport := rfl
@[simp] theorem lineEmpty_lbuf (s : State) : (lineEmpty s).lbuf = [] := rfl
@[simp] theorem lineEmpty_haddr (s : State) : (lineEmpty s).haddr = s.haddr := rfl
@[simp] theorem lineEmpty_hcode0 (s : State) : (lineEmpty s).hcode0 = s.hcode0 := rfl
@[simp] theorem lineEmpty_hcode1 (s : State) : (lineEmpty s).hcode1 = s.hcode1 := rfl
@[simp] theorem lineEmpty_hlen (s : State) : (lineEmpty s).hlen = s.hlen := rfl
@[simp] theorem lineEmpty_tok (s : State) : (lineEmpty s).tok = s.tok := rfl
@[simp] theorem lineEmpty_hist (s : State) : (lineEmpty s).hist = s.hist := rfl
@[simp] theorem lineEmpty_xpt (s : State) : (lineEmpty s).xpt = s.xpt := rfl
@[simp] theorem lineEmpty_host (s : State) : (lineEmpty s).host = s.host := rfl
@[simp] theorem lineEmpty_params (s : State) : (lineEmpty s).params = s.params := rfl

/-! lineFlags -/

@[simp] theorem lineFlags_status (b : Bool) (s : State) : (lineFlags b s).status = { s.status with term := b, vfy := false } := rfl
@[simp] theorem lineFlags_sess (b : Bool) (s : State) : (lineFlags b s).sess = s.sess := rfl
@[simp] theorem lineFlags_acc (b : Bool) (s : State) : (lineFlags b s).acc = s.acc := rfl
@[simp] theorem lineFlags_chk0 (b : Bool) (s : State) : (lineFlags b s).chk0 = s.chk0 := rfl
@[simp] theorem lineFlags_chk1 (b : Bool) (s : State) : (lineFlags b s).chk1 = s.chk1 := rfl
@[simp] theorem lineFlags_chk2 (b : Bool) (s : State) : (lineFlags b s).chk2 = s.chk2 := rfl
@[simp] theorem lineFlags_addr (b : Bool) (s : State) : (lineFlags b s).addr = s.addr := rfl
@[simp] theorem lineFlags_port (b : Bool) (s : State) : (lineFlags b s).port = s.port := rfl
@[simp] theorem lineFlags_fport (b : Bool) (s : State) : (lineFlags b s).fport = s.fport := rfl
@[simp] theorem lineFlags_lbuf (b : Bool) (s : State) : (lineFlags b s).lbuf = s.lbuf := rfl
@[simp] theorem lineFlags_haddr (b : Bool) (s : State) : (lineFlags b s).haddr = s.haddr := rfl
@[simp] theorem lineFlags_hcode0 (b : Bool) (s : State) : (lineFlags b s).hcode0 = s.hcode0 := rfl
@[simp] theorem lineFlags_hcode1 (b : Bool) (s : State) : (lineFlags b s).hcode1 = s.hcode1 := rfl
@[simp] theorem lineFlags_hlen (b : Bool) (s : State) : (lineFlags b s).hlen = s.hlen := rfl
@[simp] theorem lineFlags_tok (b : Bool) (s : State) : (lineFlags b s).tok = s.tok := rfl
@[simp] theorem lineFlags_hist (b : Bool) (s : State) : (lineFlags b s).hist = s.hist := rfl
@[simp] theorem lineFlags_xpt (b : Bool) (s : State) : (lineFlags b s).xpt = s.xpt := rfl
@[simp] theorem lineFlags_host (b : Bool) (s : State) : (lineFlags b s).host = s.host := rfl
@[simp] theorem lineFlags_params (b : Bool) (s : State) : (lineFlags b s).params = s.params := rfl

/-! clearFrame -/

@[simp] theorem clearFrame_status (s : State) : (clearFrame s).status = { s.status with mtype := .none } := rfl
@[simp] theorem clearFrame_sess (s : State) : (clearFrame s).sess = s.sess := rfl
@[simp] theorem clearFrame_acc (s : State) : (clearFrame s).acc = s.acc := rfl
@[simp] theorem clearFrame_chk0 (s : State) : (clearFrame s).chk0 = s.chk0 := rfl
@[simp] theorem clearFrame_chk1 (s : State) : (clearFrame s).chk1 = s.chk1 := rfl
@[simp] theorem clearFrame_chk2 (s : State) : (clearFrame s).chk2 = s.chk2 := rfl
@[simp] theorem clearFrame_addr (s : State) : (clearFrame s).addr = s.addr := rfl
@[simp] theorem clearFrame_port (s : State) : (clearFrame s).port = s.port := rfl
@[simp] theorem clearFrame_fport (s : State) : (clearFrame s).fport = s.fport := rfl
@[simp] theorem clearFrame_lbuf (s : State) : (clearFrame s).lbuf = s.lbuf := rfl
@[simp] theorem clearFrame_haddr (s : State) : (clearFrame s).haddr = 0x00 := rfl
@[simp] theorem clearFrame_hcode0 (s : State) : (clearFrame s).hcode0 = 0x00 := rfl
@[simp] theorem clearFrame_hcode1 (s : State) : (clearFrame s).hcode1 = 0x00 := rfl
@[simp] theorem clearFrame_hlen (s : State) : (clearFrame s).hlen = 0 := rfl
@[simp] theorem clearFrame_tok (s : State) : (clearFrame s).tok = [] := rfl
@[simp] theorem clearFrame_hist (s : State) : (clearFrame s).hist = s.hist := rfl
@[simp] theorem clearFrame_xpt (s : State) : (clearFrame s).xpt = s.xpt := rfl
@[simp] theorem clearFrame_host (s : State) : (clearFrame s).host = s.host := rfl
@[simp] theorem clearFrame_params (s : State) : (clearFrame s).params = s.params := rfl

/-! setHeader -/

@[simp] theorem setHeader_status (h : Bytes) (s : State) : (setHeader h s).status = { s.status with mtype := classify h.tail } := rfl
@[simp] theorem setHeader_sess (h : Bytes) (s : State) : (setHeader h s).sess = s.sess := rfl
@[simp] theorem setHeader_acc (h : Bytes) (s : State) : (setHeader h s).acc = s.acc := rfl
@[simp] theorem setHeader_chk0 (h : Bytes) (s : State) : (setHeader h s).chk0 = s.chk0 := rfl
@[simp] theorem setHeader_chk1 (h : Bytes) (s : State) : (setHeader h s).chk1 = s.chk1 := rfl
@[simp] theorem setHeader_chk2 (h : Bytes) (s : State) : (setHeader h s).chk2 = s.chk2 := rfl
@[simp] theorem setHeader_addr (h : Bytes) (s : State) : (setHeader h s).addr = s.addr := rfl
@[simp] theorem setHeader_port (h : Bytes) (s : State) : (setHeader h s).port = s.port := rfl
@[simp] theorem setHeader_fport (h : Bytes) (s : State) : (setHeader h s).fport = s.fport := rfl
@[simp] theorem setHeader_lbuf (h : Bytes) (s : State) : (setHeader h s).lbuf = s.lbuf := rfl
@[simp] theorem setHeader_haddr (h : Bytes) (s : State) : (setHeader h s).haddr = h.getD 0 0x00 := rfl
@[simp] theorem setHeader_hcode0 (h : Bytes) (s : State) : (setHeader h s).hcode0 = h.getD 1 0x00 := rfl
@[simp] theorem setHeader_hcode1 (h : Bytes) (s : State) : (setHeader h s).hcode1 = h.getD 2 0x00 := rfl
@[simp] theorem setHeader_hlen (h : Bytes) (s : State) : (setHeader h s).hlen = BitVec.ofNat 16 h.length := rfl
@[simp] theorem setHeader_tok (h : Bytes) (s : State) : (setHeader h s).tok = s.tok := rfl
@[simp] theorem setHeader_hist (h : Bytes) (s : State) : (setHeader h s).hist = s.hist := rfl
@[simp] theorem setHeader_xpt (h : Bytes) (s : State) : (setHeader h s).xpt = s.xpt := rfl
@[simp] theorem setHeader_host (h : Bytes) (s : State) : (setHeader h s).host = s.host := rfl
@[simp] theorem setHeader_params (h : Bytes) (s : State) : (setHeader h s).params = s.params := rfl

/-! setTok -/

@[simp] theorem setTok_status (ts : List Token) (s : State) : (setTok ts s).status = s.status := rfl
@[simp] theorem setTok_sess (ts : List Token) (s : State) : (setTok ts s).sess = s.sess := rfl
@[simp] theorem setTok_acc (ts : List Token) (s : State) : (setTok ts s).acc = s.acc := rfl
@[simp] theorem setTok_chk0 (ts : List Token) (s : State) : (setTok ts s).chk0 = s.chk0 := rfl
@[simp] theorem setTok_chk1 (ts : List Token) (s : State) : (setTok ts s).chk1 = s.chk1 := rfl
@[simp] theorem setTok_chk2 (ts : List Token) (s : State) : (setTok ts s).chk2 = s.chk2 := rfl
@[simp] theorem setTok_addr (ts : List Token) (s : State) : (setTok ts s).addr = s.addr := rfl
@[simp] theorem setTok_port (ts : List Token) (s : State) : (setTok ts s).port = s.port := rfl
@[simp] theorem setTok_fport (ts : List Token) (s : State) : (setTok ts s).fport = s.fport := rfl
@[simp] theorem setTok_lbuf (ts : List Token) (s : State) : (setTok ts s).lbuf = s.lbuf := rfl
@[simp] theorem setTok_haddr (ts : List Token) (s : State) : (setTok ts s).haddr = s.haddr := rfl
@[simp] theorem setTok_hcode0 (ts : List Token) (s : State) : (setTok ts s).hcode0 = s.hcode0 := rfl
@[simp] theorem setTok_hcode1 (ts : List Token) (s : State) : (setTok ts s).hcode1 = s.hcode1 := rfl
@[simp] theorem setTok_hlen (ts : List Token) (s : State) : (setTok ts s).hlen = s.hlen := rfl
@[simp] theorem setTok_tok (ts : List Token) (s : State) : (setTok ts s).tok = ts := rfl
@[simp] theorem setTok_hist (ts : List Token) (s : State) : (setTok ts s).hist = s.hist := rfl
@[simp] theorem setTok_xpt (ts : List Token) (s : State) : (setTok ts s).xpt = s.xpt := rfl
@[simp] theorem setTok_host (ts : List Token) (s : State) : (setTok ts s).host = s.host := rfl
@[simp] theorem setTok_params (ts : List Token) (s : State) : (setTok ts s).params = s.params := rfl

/-! logEvent -/

@[simp] theorem logEvent_status (e : Event) (s : State) : (logEvent e s).status = s.status := rfl
@[simp] theorem logEvent_sess (e : Event) (s : State) : (logEvent e s).sess = s.sess := rfl
@[simp] theorem logEvent_acc (e : Event) (s : State) : (logEvent e s).acc = s.acc := rfl
@[simp] theorem logEvent_chk0 (e : Event) (s : State) : (logEvent e s).chk0 = s.chk0 := rfl
@[simp] theorem logEvent_chk1 (e : Event) (s : State) : (logEvent e s).chk1 = s.chk1 := rfl
@[simp] theorem logEvent_chk2 (e : Event) (s : State) : (logEvent e s).chk2 = s.chk2 := rfl
@[simp] theorem logEvent_addr (e : Event) (s : State) : (logEvent e s).addr = s.addr := rfl
@[simp] theorem logEvent_port (e : Event) (s : State) : (logEvent e s).port = s.port := rfl
@[simp] theorem logEvent_fport (e : Event) (s : State) : (logEvent e s).fport = s.fport := rfl
@[simp] theorem logEvent_lbuf (e : Event) (s : State) : (logEvent e s).lbuf = s.lbuf := rfl
@[simp] theorem logEvent_haddr (e : Event) (s : State) : (logEvent e s).haddr = s.haddr := rfl
@[simp] theorem logEvent_hcode0 (e : Event) (s : State) : (logEvent e s).hcode0 = s.hcode0 := rfl
@[simp] theorem logEvent_hcode1 (e : Event) (s : State) : (logEvent e s).hcode1 = s.hcode1 := rfl
@[simp] theorem logEvent_hlen (e : Event) (s : State) : (logEvent e s).hlen = s.hlen := rfl
@[simp] theorem logEvent_tok (e : Event) (s : State) : (logEvent e s).tok = s.tok := rfl
@[simp] theorem logEvent_hist (e : Event) (s : State) : (logEvent e s).hist = s.hist ++ [e] := rfl
@[simp] theorem logEvent_xpt (e : Event) (s : State) : (logEvent e s).xpt = s.xpt := rfl
@[simp] theorem logEvent_host (e : Event) (s : State) : (logEvent e s).host = s.host := rfl
@[simp] theorem logEvent_params (e : Event) (s : State) : (logEvent e s).params = s.params := rfl

/-! xptOpen -/

@[simp] theorem xptOpen_status (p b : Nat) (s : State) : (xptOpen p b s).status = { s.status with opn := nextOpen s || s.status.opn } := rfl
@[simp] theorem xptOpen_sess (p b : Nat) (s : State) : (xptOpen p b s).sess = s.sess := rfl
@[simp] theorem xptOpen_acc (p b : Nat) (s : State) : (xptOpen p b s).acc = s.acc := rfl
@[simp] theorem xptOpen_chk0 (p b : Nat) (s : State) : (xptOpen p b s).chk0 = s.chk0 := rfl
@[simp] theorem xptOpen_chk1 (p b : Nat) (s : State) : (xptOpen p b s).chk1 = s.chk1 := rfl
@[simp] theorem xptOpen_chk2 (p b : Nat) (s : State) : (xptOpen p b s).chk2 = s.chk2 := rfl
@[simp] theorem xptOpen_addr (p b : Nat) (s : State) : (xptOpen p b s).addr = s.addr := rfl
@[simp] theorem xptOpen_port (p b : Nat) (s : State) : (xptOpen p b s).port = if nextOpen s then portByte p else s.port := rfl
@[simp] theorem xptOpen_fport (p b : Nat) (s : State) : (xptOpen p b s).fport = s.fport := rfl
@[simp] theorem xptOpen_lbuf (p b : Nat) (s : State) : (xptOpen p b s).lbuf = s.lbuf := rfl
@[simp] theorem xptOpen_haddr (p b : Nat) (s : State) : (xptOpen p b s).haddr = s.haddr := rfl
@[simp] theorem xptOpen_hcode0 (p b : Nat) (s : State) : (xptOpen p b s).hcode0 = s.hcode0 := rfl
@[simp] theorem xptOpen_hcode1 (p b : Nat) (s : State) : (xptOpen p b s).hcode1 = s.hcode1 := rfl
@[simp] theorem xptOpen_hlen (p b : Nat) (s : State) : (xptOpen p b s).hlen = s.hlen := rfl
@[simp] theorem xptOpen_tok (p b : Nat) (s : State) : (xptOpen p b s).tok = s.tok := rfl
@[simp] theorem xptOpen_hist (p b : Nat) (s : State) : (xptOpen p b s).hist = s.hist ++ [.openPort p b (nextOpen s)] := rfl
@[simp] theorem xptOpen_xpt (p b : Nat) (s : State) : (xptOpen p b s).xpt = s.xpt.afterOpen := rfl
@[simp] theorem xptOpen_host (p b : Nat) (s : State) : (xptOpen p b s).host = s.host := rfl
@[simp] theorem xptOpen_params (p b : Nat) (s : State) : (xptOpen p b s).params = s.params := rfl

/-! xptSettle -/

@[simp] theorem xptSettle_status (s : State) : (xptSettle s).status = s.status := rfl
@[simp] theorem xptSettle_sess (s : State) : (xptSettle s).sess = s.sess := rfl
@[simp] theorem xptSettle_acc (s : State) : (xptSettle s).acc = s.acc := rfl
@[simp] theorem xptSettle_chk0 (s : State) : (xptSettle s).chk0 = s.chk0 := rfl
@[simp] theorem xptSettle_chk1 (s : State) : (xptSettle s).chk1 = s.chk1 := rfl
@[simp] theorem xptSettle_chk2 (s : State) : (xptSettle s).chk2 = s.chk2 := rfl
@[simp] theorem xptSettle_addr (s : State) : (xptSettle s).addr = s.addr := rfl
@[simp] theorem xptSettle_port (s : State) : (xptSettle s).port = s.port := rfl
@[simp] theorem xptSettle_fport (s : State) : (xptSettle s).fport = s.fport := rfl
@[simp] theorem xptSettle_lbuf (s : State) : (xptSettle s).lbuf = s.lbuf := rfl
@[simp] theorem xptSettle_haddr (s : State) : (xptSettle s).haddr = s.haddr := rfl
@[simp] theorem xptSettle_hcode0 (s : State) : (xptSettle s).hcode0 = s.hcode0 := rfl
@[simp] theorem xptSettle_hcode1 (s : State) : (xptSettle s).hcode1 = s.hcode1 := rfl
@[simp] theorem xptSettle_hlen (s : State) : (xptSettle s).hlen = s.hlen := rfl
@[simp] theorem xptSettle_tok (s : State) : (xptSettle s).tok = s.tok := rfl
@[simp] theorem xptSettle_hist (s : State) : (xptSettle s).hist = s.hist ++ [.settle] := rfl
@[simp] theorem xptSettle_xpt (s : State) : (xptSettle s).xpt = s.xpt := rfl
@[simp] theorem xptSettle_host (s : State) : (xptSettle s).host = s.host := rfl
@[simp] theorem xptSettle_params (s : State) : (xptSettle s).params = s.params := rfl

/-! xptFlush -/

@[simp] theorem xptFlush_status (s : State) : (xptFlush s).status = s.status := rfl
@[simp] theorem xptFlush_sess (s : State) : (xptFlush s).sess = s.sess := rfl
@[simp] theorem xptFlush_acc (s : State) : (xptFlush s).acc = s.acc := rfl
@[simp] theorem xptFlush_chk0 (s : State) : (xptFlush s).chk0 = s.chk0 := rfl
@[simp] theorem xptFlush_chk1 (s : State) : (xptFlush s).chk1 = s.chk1 := rfl
@[simp] theorem xptFlush_chk2 (s : State) : (xptFlush s).chk2 = s.chk2 := rfl
@[simp] theorem xptFlush_addr (s : State) : (xptFlush s).addr = s.addr := rfl
@[simp] theorem xptFlush_port (s : State) : (xptFlush s).port = s.port := rfl
@[simp] theorem xptFlush_fport (s : State) : (xptFlush s).fport = s.fport := rfl
@[simp] theorem xptFlush_lbuf (s : State) : (xptFlush s).lbuf = s.lbuf := rfl
@[simp] theorem xptFlush_haddr (s : State) : (xptFlush s).haddr = s.haddr := rfl
@[simp] theorem xptFlush_hcode0 (s : State) : (xptFlush s).hcode0 = s.hcode0 := rfl
@[simp] theorem xptFlush_hcode1 (s : State) : (xptFlush s).hcode1 = s.hcode1 := rfl
@[simp] theorem xptFlush_hlen (s : State) : (xptFlush s).hlen = s.hlen := rfl
@[simp] theorem xptFlush_tok (s : State) : (xptFlush s).tok = s.tok := rfl
@[simp] theorem xptFlush_hist (s : State) : (xptFlush s).hist = s.hist ++ [.flush] := rfl
@[simp] theorem xptFlush_xpt (s : State) : (xptFlush s).xpt = { s.xpt with rx := [] } := rfl
@[simp] theorem xptFlush_host (s : State) : (xptFlush s).host = s.host := rfl
@[simp] theorem xptFlush_params (s : State) : (xptFlush s).params = s.params := rfl

/-! xptWrite -/

@[simp] theorem xptWrite_status (l : Bytes) (s : State) : (xptWrite l s).status = s.status := rfl
@[simp] theorem xptWrite_sess (l : Bytes) (s : State) : (xptWrite l s).sess = s.sess := rfl
@[simp] theorem xptWrite_acc (l : Bytes) (s : State) : (xptWrite l s).acc = s.acc := rfl
@[simp] theorem xptWrite_chk0 (l : Bytes) (s : State) : (xptWrite l s).chk0 = s.chk0 := rfl
@[simp] theorem xptWrite_chk1 (l : Bytes) (s : State) : (xptWrite l s).chk1 = s.chk1 := rfl
@[simp] theorem xptWrite_chk2 (l : Bytes) (s : State) : (xptWrite l s).chk2 = s.chk2 := rfl
@[simp] theorem xptWrite_addr (l : Bytes) (s : State) : (xptWrite l s).addr = s.addr := rfl
@[simp] theorem xptWrite_port (l : Bytes) (s : State) : (xptWrite l s).port = s.port := rfl
@[simp] theorem xptWrite_fport (l : Bytes) (s : State) : (xptWrite l s).fport = s.fport := rfl
@[simp] theorem xptWrite_lbuf (l : Bytes) (s : State) : (xptWrite l s).lbuf = s.lbuf := rfl
@[simp] theorem xptWrite_haddr (l : Bytes) (s : State) : (xptWrite l s).haddr = s.haddr := rfl
@[simp] theorem xptWrite_hcode0 (l : Bytes) (s : State) : (xptWrite l s).hcode0 = s.hcode0 := rfl
@[simp] theorem xptWrite_hcode1 (l : Bytes) (s : State) : (xptWrite l s).hcode1 = s.hcode1 := rfl
@[simp] theorem xptWrite_hlen (l : Bytes) (s : State) : (xptWrite l s).hlen = s.hlen := rfl
@[simp] theorem xptWrite_tok (l : Bytes) (s : State) : (xptWrite l s).tok = s.tok := rfl
@[simp] theorem xptWrite_hist (l : Bytes) (s : State) : (xptWrite l s).hist = s.hist ++ [.write l] := rfl
@[simp] theorem xptWrite_xpt (l : Bytes) (s : State) : (xptWrite l s).xpt = s.xpt := rfl
@[simp] theorem xptWrite_host (l : Bytes) (s : State) : (xptWrite l s).host = s.host := rfl
@[simp] theorem xptWrite_params (l : Bytes) (s : State) : (xptWrite l s).params = s.params := rfl

/-! xptReadLine -/

@[simp] theorem xptReadLine_status (s : State) : (xptReadLine s).status = s.status := rfl
@[simp] theorem xptReadLine_sess (s : State) : (xptReadLine s).sess = s.sess := rfl
@[simp] theorem xptReadLine_acc (s : State) : (xptReadLine s).acc = s.acc := rfl
@[simp] theorem xptReadLine_chk0 (s : State) : (xptReadLine s).chk0 = s.chk0 := rfl
@[simp] theorem xptReadLine_chk1 (s : State) : (xptReadLine s).chk1 = s.chk1 := rfl
@[simp] theorem xptReadLine_chk2 (s : State) : (xptReadLine s).chk2 = s.chk2 := rfl
@[simp] theorem xptReadLine_addr (s : State) : (xptReadLine s).addr = s.addr := rfl
@[simp] theorem xptReadLine_port (s : State) : (xptReadLine s).port = s.port := rfl
@[simp] theorem xptReadLine_fport (s : State) : (xptReadLine s).fport = s.fport := rfl
@[simp] theorem xptReadLine_lbuf (s : State) : (xptReadLine s).lbuf = s.lbuf := rfl
@[simp] theorem xptReadLine_haddr (s : State) : (xptReadLine s).haddr = s.haddr := rfl
@[simp] theorem xptReadLine_hcode0 (s : State) : (xptReadLine s).hcode0 = s.hcode0 := rfl
@[simp] theorem xptReadLine_hcode1 (s : State) : (xptReadLine s).hcode1 = s.hcode1 := rfl
@[simp] theorem xptReadLine_hlen (s : State) : (xptReadLine s).hlen = s.hlen := rfl
@[simp] theorem xptReadLine_tok (s : State) : (xptReadLine s).tok = s.tok := rfl
@[simp] theorem xptReadLine_hist (s : State) : (xptReadLine s).hist = s.hist ++ [.readLine (nextLine s)] := rfl
@[simp] theorem xptReadLine_xpt (s : State) : (xptReadLine s).xpt = s.xpt.afterRead s.hist := rfl
@[simp] theorem xptReadLine_host (s : State) : (xptReadLine s).host = s.host := rfl
@[simp] theorem xptReadLine_params (s : State) : (xptReadLine s).params = s.params := rfl

/-! xptClose -/

@[simp] theorem xptClose_status (s : State) : (xptClose s).status = { s.status with opn := false } := rfl
@[simp] theorem xptClose_sess (s : State) : (xptClose s).sess = s.sess := rfl
@[simp] theorem xptClose_acc (s : State) : (xptClose s).acc = s.acc := rfl
@[simp] theorem xptClose_chk0 (s : State) : (xptClose s).chk0 = s.chk0 := rfl
@[simp] theorem xptClose_chk1 (s : State) : (xptClose s).chk1 = s.chk1 := rfl
@[simp] theorem xptClose_chk2 (s : State) : (xptClose s).chk2 = s.chk2 := rfl
@[simp] theorem xptClose_addr (s : State) : (xptClose s).addr = s.addr := rfl
@[simp] theorem xptClose_port (s : State) : (xptClose s).port = s.port := rfl
@[simp] theorem xptClose_fport (s : State) : (xptClose s).fport = s.fport := rfl
@[simp] theorem xptClose_lbuf (s : State) : (xptClose s).lbuf = s.lbuf := rfl
@[simp] theorem xptClose_haddr (s : State) : (xptClose s).haddr = s.haddr := rfl
@[simp] theorem xptClose_hcode0 (s : State) : (xptClose s).hcode0 = s.hcode0 := rfl
@[simp] theorem xptClose_hcode1 (s : State) : (xptClose s).hcode1 = s.hcode1 := rfl
@[simp] theorem xptClose_hlen (s : State) : (xptClose s).hlen = s.hlen := rfl
@[simp] theorem xptClose_tok (s : State) : (xptClose s).tok = s.tok := rfl
@[simp] theorem xptClose_hist (s : State) : (xptClose s).hist = s.hist ++ [.close] := rfl
@[simp] theorem xptClose_xpt (s : State) : (xptClose s).xpt = s.xpt := rfl
@[simp] theorem xptClose_host (s : State) : (xptClose s).host = s.host := rfl
@[simp] theorem xptClose_params (s : State) : (xptClose s).params = s.params := rfl

/-! emitRecord -/

@[simp] theorem emitRecord_status (s : State) : (emitRecord s).status = s.status := rfl
@[simp] theorem emitRecord_sess (s : State) : (emitRecord s).sess = s.sess := rfl
@[simp] theorem emitRecord_acc (s : State) : (emitRecord s).acc = s.acc := rfl
@[simp] theorem emitRecord_chk0 (s : State) : (emitRecord s).chk0 = s.chk0 := rfl
@[simp] theorem emitRecord_chk1 (s : State) : (emitRecord s).chk1 = s.chk1 := rfl
@[simp] theorem emitRecord_chk2 (s : State) : (emitRecord s).chk2 = s.chk2 := rfl
@[simp] theorem emitRecord_addr (s : State) : (emitRecord s).addr = s.addr := rfl
@[simp] theorem emitRecord_port (s : State) : (emitRecord s).port = s.port := rfl
@[simp] theorem emitRecord_fport (s : State) : (emitRecord s).fport = s.fport := rfl
@[simp] theorem emitRecord_lbuf (s : State) : (emitRecord s).lbuf = s.lbuf := rfl
@[simp] theorem emitRecord_haddr (s : State) : (emitRecord s).haddr = s.haddr := rfl
@[simp] theorem emitRecord_hcode0 (s : State) : (emitRecord s).hcode0 = s.hcode0 := rfl
@[simp] theorem emitRecord_hcode1 (s : State) : (emitRecord s).hcode1 = s.hcode1 := rfl
@[simp] theorem emitRecord_hlen (s : State) : (emitRecord s).hlen = s.hlen := rfl
@[simp] theorem emitRecord_tok (s : State) : (emitRecord s).tok = s.tok := rfl
@[simp] theorem emitRecord_hist (s : State) : (emitRecord s).hist = s.hist ++ [.emit (tokenRecord s)] := rfl
@[simp] theorem emitRecord_xpt (s : State) : (emitRecord s).xpt = s.xpt := rfl
@[simp] theorem emitRecord_host (s : State) : (emitRecord s).host = s.host := rfl
@[simp] theorem emitRecord_params (s : State) : (emitRecord s).params = s.params := rfl

end Sys2Proof.Machine
end

