-- ==== Sys2Proof/Laws/Line.lean ====
section
/-! SUPPORT. What the line buffer operations do, each said once: appending a sequence, loading a line and reading one from
the transport (42_line.md R150, R151, 20_memory.md R69). -/

namespace Sys2Proof.Machine

/-- Appending a sequence stores what fits and sets OVF when something did not (R150). -/
theorem lbufAppendAll_eq (l : Bytes) (s : State) :
    lbufAppendAll l s = { s with
      lbuf := s.lbuf ++ l.take (s.params.lbufMax - s.lbuf.length)
      status := { s.status with
        ovf := s.status.ovf || decide (s.params.lbufMax - s.lbuf.length < l.length) } } := by
  induction l generalizing s with
  | nil => simp [lbufAppendAll]
  | cons b bs ih =>
    rw [lbufAppendAll, ih]
    unfold lbufAppend
    split
    · next h =>
      obtain ⟨n, hn⟩ : ∃ n, s.params.lbufMax - s.lbuf.length = n + 1 :=
        ⟨s.params.lbufMax - s.lbuf.length - 1, by omega⟩
      have hm : s.params.lbufMax - (s.lbuf ++ [b]).length = n := by
        rw [List.length_append, List.length_singleton]; omega
      simp only [hn, hm, List.take_succ_cons, List.append_assoc, List.singleton_append, List.length_cons]
      simp
    · next h =>
      have hn : s.params.lbufMax - s.lbuf.length = 0 := by omega
      simp [hn]

/-- `line_load` stores the first P_LBUF_MAX bytes; OVF says that there were more, TERM how the line ended (R151). -/
theorem lineLoad_eq (l : Bytes) (s : State) :
    lineLoad l s = { s with
      lbuf := l.take s.params.lbufMax
      status := { s.status with
        ovf := decide (s.params.lbufMax < l.length), term := endsInLf l, vfy := false } } := by
  simp [lineLoad, lbufAppendAll_eq, lineFlags, lineEmpty]

/-- A line read from the transport and loaded (20_memory.md R69, 42_line.md R151). -/
theorem readIntoLine_eq (s : State) :
    readIntoLine s = { s with
      lbuf := (nextLine s).take s.params.lbufMax
      hist := s.hist ++ [.readLine (nextLine s)]
      xpt := s.xpt.afterRead s.hist
      status := { s.status with
        ovf := decide (s.params.lbufMax < (nextLine s).length), term := endsInLf (nextLine s), vfy := false } } := by
  rw [readIntoLine, lineLoad_eq]; rfl

/-- TERM in the words of the rule: the line's last byte is 0x0A. -/
theorem endsInLf_eq (l : Bytes) : endsInLf l = decide (l.getLast? = some 0x0A) := by
  unfold endsInLf; rw [Bool.eq_iff_iff]; simp

/-- What LINE.PUT does to the line (R153). -/
theorem linePutState_eq (b : Byte) (s : State) :
    linePutState b s = { s with
      lbuf := s.lbuf ++ [b].take (s.params.lbufMax - s.lbuf.length)
      status := { s.status with
        ovf := s.status.ovf || decide (s.params.lbufMax - s.lbuf.length < 1), term := false, vfy := false } } := by
  have h := lbufAppendAll_eq [b] s
  simp only [lbufAppendAll, List.length_singleton] at h
  simp only [linePutState, h]; rfl

end Sys2Proof.Machine
end

