-- ==== Sys2Proof/Laws/Text.lean ====
section
/-! SUPPORT. What the helpers over byte sequences do: dropping from the end, cutting a line, searching and splitting
(43_frame.md R170 to R173, 00_scope.md R11, 20_memory.md R69). -/

namespace Sys2Proof.Machine

/-- Nothing is dropped when the last byte does not satisfy p. -/
theorem dropEndWhile_of_last {p : Byte → Bool} {s : Bytes} {c : Byte} (h : s.getLast? = some c) (hc : p c = false) :
    dropEndWhile p s = s := by
  obtain ⟨t, rfl⟩ : ∃ t, s = t ++ [c] := by
    rw [List.getLast?_eq_some_iff] at h; exact h
  simp [dropEndWhile, hc]

/-- A tail of bytes that all satisfy p is dropped. -/
theorem dropEndWhile_append {p : Byte → Bool} (s : Bytes) {z : Bytes} (hz : ∀ b ∈ z, p b = true) :
    dropEndWhile p (s ++ z) = dropEndWhile p s := by
  unfold dropEndWhile
  rw [List.reverse_append, List.dropWhile_append_of_pos (by simpa using hz)]

/-- What is kept does not end in a byte that satisfies p. -/
theorem dropEndWhile_last {p : Byte → Bool} {s : Bytes} {c : Byte} (h : (dropEndWhile p s).getLast? = some c) :
    p c = false := by
  unfold dropEndWhile at h
  rw [List.getLast?_reverse] at h
  cases hd : s.reverse.dropWhile p with
  | nil => simp [hd] at h
  | cons a t =>
    have := List.head_dropWhile_not (p := p) (l := s.reverse) (by simp [hd])
    simp [hd] at h this
    rw [← h]; exact this

/-- What is dropped all satisfies p. -/
theorem dropEndWhile_split (p : Byte → Bool) (s : Bytes) :
    ∃ z, s = dropEndWhile p s ++ z ∧ ∀ b ∈ z, p b = true := by
  refine ⟨(s.reverse.takeWhile p).reverse, ?_, ?_⟩
  · unfold dropEndWhile
    rw [← List.reverse_append, List.takeWhile_append_dropWhile, List.reverse_reverse]
  · intro b hb
    exact List.mem_takeWhile_imp (List.mem_reverse.1 hb)

theorem isTerm_iff (b : Byte) : isTerm b = true ↔ b = 0x0D ∨ b = 0x0A := by
  simp [isTerm]

/-- A cut line and its rest make up the queue. -/
theorem cutLine_append (s : Bytes) : (cutLine s).1 ++ (cutLine s).2 = s := by
  induction s with
  | nil => rfl
  | cons b bs ih =>
    unfold cutLine; split
    · rfl
    · simpa using ih

/-- A cut line holds 0x0A at most as its last byte (R69). -/
theorem cutLine_legal (s : Bytes) : lineLegal (cutLine s).1 = true := by
  induction s with
  | nil => rfl
  | cons b bs ih =>
    unfold cutLine; split
    · simp [lineLegal]
    · next h =>
      cases hc : (cutLine bs).1 with
      | nil => simp [lineLegal]
      | cons a t =>
        rw [hc] at ih
        simp only [lineLegal, List.dropLast_cons_cons, List.contains_cons, Bool.not_or, Bool.and_eq_true] at ih ⊢
        refine ⟨?_, ih⟩
        simp only [Bool.not_eq_true', beq_eq_false_iff_ne, ne_eq]
        exact fun e => h e.symm

/-- A legal line is cut whole, with nothing left (R69). -/
theorem cutLine_of_legal {s : Bytes} (h : lineLegal s = true) : cutLine s = (s, []) := by
  induction s with
  | nil => rfl
  | cons b bs ih =>
    unfold cutLine
    cases bs with
    | nil => split <;> simp_all [cutLine]
    | cons c t =>
      simp only [lineLegal, List.dropLast_cons_cons, List.contains_cons, Bool.not_or, Bool.and_eq_true,
        Bool.not_eq_true', beq_eq_false_iff_ne, ne_eq] at h
      rw [if_neg (fun e => h.1 e.symm), ih (by simpa [lineLegal] using h.2)]

/-- `contains` is what R11 says: t stands somewhere in s. -/
theorem contains_iff (t s : Bytes) : contains t s = true ↔ ∃ x y, s = x ++ t ++ y := by
  induction s with
  | nil =>
    simp only [contains, List.isEmpty_iff]
    constructor
    · rintro rfl; exact ⟨[], [], rfl⟩
    · rintro ⟨x, y, h⟩
      have := congrArg List.length h
      simp at this
      exact List.eq_nil_of_length_eq_zero (by omega)
  | cons b bs ih =>
    rw [contains, Bool.or_eq_true, ih, List.isPrefixOf_iff_prefix]
    constructor
    · rintro (⟨y, hy⟩ | ⟨x, y, hy⟩)
      · exact ⟨[], y, by simpa using hy.symm⟩
      · exact ⟨b :: x, y, by simp [hy]⟩
    · rintro ⟨x, y, h⟩
      cases x with
      | nil => exact .inl ⟨y, by simpa using h.symm⟩
      | cons a x =>
        simp only [List.cons_append, List.cons.injEq] at h
        exact .inr ⟨x, y, h.2⟩

/-- A split is never empty (R173). -/
theorem split_ne_nil (c : Byte) (s : Bytes) : split c s ≠ [] := by
  cases s with
  | nil => simp [split]
  | cons b bs => unfold split; split <;> [simp; (split <;> simp)]

/-- No piece holds the separator (R173). -/
theorem split_mem (c : Byte) (s : Bytes) : ∀ p ∈ split c s, c ∉ p := by
  induction s with
  | nil => simp [split]
  | cons b bs ih =>
    intro p hp
    rw [split] at hp
    split at hp
    · rcases List.mem_cons.1 hp with rfl | hp
      · simp
      · exact ih p hp
    · next hb =>
      split at hp
      · simp only [List.mem_singleton] at hp; subst hp; simp [Ne.symm hb]
      · next q qs hq =>
        rcases List.mem_cons.1 hp with rfl | hp
        · have := ih q (by simp [hq])
          simp [Ne.symm hb, this]
        · exact ih p (by simp [hq, hp])

/-- Joined with the separator, the pieces give the sequence back (R173). -/
theorem split_join (c : Byte) (s : Bytes) : List.intercalate [c] (split c s) = s := by
  induction s with
  | nil => simp [split]
  | cons b bs ih =>
    have hne := split_ne_nil c bs
    rw [split]
    split
    · next h =>
      subst h
      cases hs : split b bs with
      | nil => exact absurd hs hne
      | cons q qs => rw [hs] at ih; rw [List.intercalate_cons_cons, ih]; rfl
    · split
      · next hs => exact absurd hs hne
      · next q qs hs =>
        rw [hs] at ih
        cases qs with
        | nil => simpa using ih
        | cons r rs =>
          rw [List.intercalate_cons_cons] at ih ⊢
          simp only [List.cons_append, ih]

/-- k occurrences of the separator give k + 1 pieces (R173). -/
theorem split_length (c : Byte) (s : Bytes) : (split c s).length = s.count c + 1 := by
  induction s with
  | nil => simp [split]
  | cons b bs ih =>
    have hne := split_ne_nil c bs
    rw [split]
    split
    · next h => subst h; simp [ih]
    · next h =>
      rw [List.count_cons_of_ne h]
      split
      · next hs => exact absurd hs hne
      · next q qs hs => rw [hs] at ih; simpa using ih

/-- A sequence without the separator is one piece. -/
theorem split_of_not_mem {c : Byte} {s : Bytes} (h : c ∉ s) : split c s = [s] := by
  induction s with
  | nil => rfl
  | cons b bs ih =>
    simp only [List.mem_cons, not_or] at h
    rw [split, if_neg (Ne.symm h.1), ih h.2]

/-- A piece, the separator and the rest (R173). -/
theorem split_append {c : Byte} {s : Bytes} (h : c ∉ s) (t : Bytes) : split c (s ++ c :: t) = s :: split c t := by
  induction s with
  | nil => simp [split]
  | cons b bs ih =>
    simp only [List.mem_cons, not_or] at h
    rw [List.cons_append, split, if_neg (Ne.symm h.1), ih h.2]

/-- `split_first_eq` cuts at the first 0x3D (R173). -/
theorem splitFirstEq_append {l : Bytes} (h : 0x3D#8 ∉ l) (v : Bytes) :
    splitFirstEq (l ++ 0x3D :: v) = some { label := l, value := v } := by
  induction l with
  | nil => simp [splitFirstEq]
  | cons b bs ih =>
    simp only [List.mem_cons, not_or] at h
    rw [List.cons_append, splitFirstEq, if_neg (Ne.symm h.1), ih h.2]

/-- A piece with no 0x3D is no token (R180). -/
theorem splitFirstEq_of_not_mem {p : Bytes} (h : 0x3D#8 ∉ p) : splitFirstEq p = none := by
  induction p with
  | nil => rfl
  | cons b bs ih =>
    simp only [List.mem_cons, not_or] at h
    rw [splitFirstEq, if_neg (Ne.symm h.1), ih h.2]

/-- A token's piece, taken apart (R173). -/
theorem splitFirstEq_some {p : Bytes} {t : Token} (h : splitFirstEq p = some t) :
    p = t.label ++ 0x3D :: t.value ∧ 0x3D#8 ∉ t.label := by
  induction p generalizing t with
  | nil => simp [splitFirstEq] at h
  | cons b bs ih =>
    rw [splitFirstEq] at h
    split at h
    · next hb => cases h; simp [hb]
    · next hb =>
      split at h
      · cases h
      · next u hu =>
        cases h
        obtain ⟨h1, h2⟩ := ih hu
        refine ⟨by simpa using h1, ?_⟩
        simp [Ne.symm hb, h2]

/-- Only the four codes of R174 are recognised. -/
theorem classify_eq_none_iff (c : Bytes) :
    classify c = .none ↔ c ≠ [0x72, 0x31] ∧ c ≠ [0x72, 0x32] ∧ c ≠ [0x72, 0x33] ∧ c ≠ [0x72, 0x35] := by
  unfold classify; split_ifs <;> simp_all

/-- A recognised code is two bytes long (R174). -/
theorem classify_length {c : Bytes} (h : classify c ≠ .none) : c.length = 2 := by
  by_contra hc
  refine h ((classify_eq_none_iff c).2 ⟨?_, ?_, ?_, ?_⟩) <;> (rintro rfl; exact hc rfl)

end Sys2Proof.Machine
end

