-- ==== Sys2Proof/Laws/Transport.lean ====
section
/-! SUPPORT. What the transport's answers are (20_memory.md R67, R69, R70), each said once. -/

namespace Sys2Proof.Machine

/-- Every line a readline returns is legal (R69). -/
theorem nextLine_legal (s : State) : lineLegal (nextLine s) = true :=
  cutLine_legal _

/-- A listed answer to an open is the answer (R67). -/
theorem nextOpen_of_cons {s : State} {ok : Bool} {os : List Bool} (h : s.xpt.opens = ok :: os) : nextOpen s = ok := by
  simp [nextOpen, Transport.openAnswer, h]

/-- On an empty queue the next line is cut from what the device sends (R70). -/
theorem nextLine_of_rx_nil {s : State} (h : s.xpt.rx = []) :
    nextLine s = (cutLine (s.xpt.sent s.hist)).1 := by
  simp [nextLine, Transport.lineRead, Transport.receive, h]

/-- On an empty queue a listed legal line is the line returned (R69). -/
theorem nextLine_of_lines {s : State} {l : Bytes} {ls : List Bytes} (h : s.xpt.rx = []) (hl : s.xpt.lines = l :: ls)
    (ok : lineLegal l = true) : nextLine s = l := by
  rw [nextLine_of_rx_nil h]
  simp [Transport.sent, hl, cutLine_of_legal ok]

/-- After such a read the queue is empty again and the line is used up. -/
theorem afterRead_of_lines {t : Transport} {h : List Event} {l : Bytes} {ls : List Bytes} (hr : t.rx = [])
    (hl : t.lines = l :: ls) (ok : lineLegal l = true) :
    t.afterRead h = { t with rx := [], lines := ls, linesDrawn := t.linesDrawn + 1 } := by
  simp [Transport.afterRead, Transport.receive, hr, Transport.sent, hl, cutLine_of_legal ok]

end Sys2Proof.Machine
end

