-- ==== Sys2Proof/Laws/Discovery.lean ====
section
/-! SUPPORT. Everything the sequencer's shared operations can do, said once (45_session.md R237 to R239, R246, R247): each
lemma lists the outcomes with the whole state each one leaves. -/

namespace Sys2Proof.Machine

/-- The line flags after the line l was loaded (42_line.md R151). -/
abbrev lineStatus (t : Status) (max : Nat) (l : Bytes) : Status :=
  { t with ovf := decide (max < l.length), term := endsInLf l, vfy := false }

/-- The events of a first request, from the settle to the reply (R237, R246). -/
abbrev requestEvents (frame r : Bytes) : List Event :=
  [.settle, .flush, .write frame, .readLine r]

/-- A successful open, written out (20_memory.md R67). -/
theorem xptOpen_ok {s : State} (p b : Nat) (h : nextOpen s = true) :
    xptOpen p b s = { s with
      port := portByte p
      hist := s.hist ++ [.openPort p b true]
      xpt := s.xpt.afterOpen
      status := { s.status with opn := true } } := by
  simp [xptOpen, logEvent, h]

/-- A failed open, written out (20_memory.md R67). -/
theorem xptOpen_fail {s : State} (p b : Nat) (h : nextOpen s = false) :
    xptOpen p b s = { s with hist := s.hist ++ [.openPort p b false], xpt := s.xpt.afterOpen } := by
  simp [xptOpen, logEvent, h]

/-- A first request: one legal line is read and loaded, four events are recorded (R237, R246). -/
theorem firstRequest_cases (frame : Bytes) (s : State) :
    ∃ r x, lineLegal r = true ∧ firstRequest frame s = { s with
      lbuf := r.take s.params.lbufMax
      hist := s.hist ++ requestEvents frame r
      xpt := x
      status := lineStatus s.status s.params.lbufMax r } := by
  let u := xptWrite frame (xptFlush (xptSettle s))
  refine ⟨nextLine u, u.xpt.afterRead u.hist, nextLine_legal u, ?_⟩
  rw [firstRequest, readIntoLine_eq]
  simp [xptWrite, xptFlush, xptSettle, logEvent, u]

/-- The settings request: one legal line is read and loaded, four events are recorded, the port is closed (R237). -/
theorem askSettings_cases (s : State) :
    ∃ r x, lineLegal r = true ∧ askSettings s = { s with
      lbuf := r.take s.params.lbufMax
      hist := s.hist ++ [.flush, .write (settingsFrame s.addr), .readLine r, .close]
      xpt := x
      status := { lineStatus s.status s.params.lbufMax r with opn := false } } := by
  let u := xptWrite (settingsFrame s.addr) (xptFlush s)
  refine ⟨nextLine u, u.xpt.afterRead u.hist, nextLine_legal u, ?_⟩
  rw [askSettings, readIntoLine_eq]
  simp [xptWrite, xptFlush, xptClose, logEvent, u]

/-- The nine events of a candidate that gave an address, by its address and replies (R237). -/
abbrev addressedEvents (p baud : Nat) (a : Byte) (r1 r2 : Bytes) : List Event :=
  .openPort p baud true :: requestEvents probeFrame r1 ++ [.flush, .write (settingsFrame a), .readLine r2, .close]

/-- The state after a candidate gave address a and the reply r2 to the settings request (R237). -/
abbrev addressedState (p baud : Nat) (a : Byte) (r1 r2 : Bytes) (x : Transport) (v : Bool) (s : State) : State :=
  { s with
    addr := a
    port := portByte p
    lbuf := r2.take s.params.lbufMax
    hist := s.hist ++ addressedEvents p baud a r1 r2
    xpt := x
    status := { lineStatus s.status s.params.lbufMax r2 with opn := false, addrv := v } }

/-- The two replies' tests on an opened port (R237). -/
theorem probeOpened_cases (s : State) :
    (∃ r1 x, lineLegal r1 = true ∧ addressOk (r1.take s.params.lbufMax) = false ∧
      probeOpened s = (.noAddressReply, { s with
        lbuf := r1.take s.params.lbufMax
        hist := s.hist ++ (requestEvents probeFrame r1 ++ [.close])
        xpt := x
        status := { lineStatus s.status s.params.lbufMax r1 with opn := false } })) ∨
    (∃ r1 r2 x a v, lineLegal r1 = true ∧ lineLegal r2 = true ∧ (r1.take s.params.lbufMax).head? = some a ∧
      isAlnum a = true ∧ identOk s.params.modelId (r2.take s.params.lbufMax) = v ∧
      probeOpened s = (if v then .found else .noMatch, { s with
        addr := a
        lbuf := r2.take s.params.lbufMax
        hist := s.hist ++ (requestEvents probeFrame r1 ++ [.flush, .write (settingsFrame a), .readLine r2, .close])
        xpt := x
        status := { lineStatus s.status s.params.lbufMax r2 with opn := false, addrv := v } })) := by
  obtain ⟨r1, x1, l1, e1⟩ := firstRequest_cases probeFrame s
  cases ho : addressOk (r1.take s.params.lbufMax) with
  | false =>
    refine .inl ⟨r1, x1, l1, ho, ?_⟩
    simp [probeOpened, e1, ho, xptClose, logEvent]
  | true =>
    obtain ⟨a, t, hr⟩ : ∃ a t, r1.take s.params.lbufMax = a :: t := by
      cases h : r1.take s.params.lbufMax with
      | nil => simp [h, addressOk] at ho
      | cons a t => exact ⟨a, t, rfl⟩
    have ha : isAlnum a = true := by rw [hr] at ho; exact ho
    obtain ⟨r2, x2, l2, e2⟩ := askSettings_cases (setAddr a (firstRequest probeFrame s))
    refine .inr ⟨r1, r2, x2, a, identOk s.params.modelId (r2.take s.params.lbufMax), l1, l2, by rw [hr]; rfl, ha,
      rfl, ?_⟩
    have h1 : addressOk (firstRequest probeFrame s).lbuf = true := by rw [e1]; exact ho
    have h2 : (firstRequest probeFrame s).lbuf.headD 0 = a := by rw [e1]; simp [hr]
    simp only [probeOpened, h1, if_true, h2, e2]
    rw [e1]
    cases hi : identOk s.params.modelId (r2.take s.params.lbufMax) <;> (simp [setAddr, setAddrv, hi]; rfl)

/-- Everything the probe of one candidate can do (R237). -/
theorem probeCandidate_cases (p baud : Nat) (s : State) :
    (probeCandidate p baud s = (.openFailed, { s with
        hist := s.hist ++ [.openPort p baud false], xpt := s.xpt.afterOpen })) ∨
    (∃ r1 x, lineLegal r1 = true ∧ addressOk (r1.take s.params.lbufMax) = false ∧
      probeCandidate p baud s = (.noAddressReply, { s with
        port := portByte p
        lbuf := r1.take s.params.lbufMax
        hist := s.hist ++ (.openPort p baud true :: requestEvents probeFrame r1 ++ [.close])
        xpt := x
        status := { lineStatus s.status s.params.lbufMax r1 with opn := false } })) ∨
    (∃ r1 r2 x a v, lineLegal r1 = true ∧ lineLegal r2 = true ∧ (r1.take s.params.lbufMax).head? = some a ∧
      isAlnum a = true ∧ identOk s.params.modelId (r2.take s.params.lbufMax) = v ∧
      probeCandidate p baud s = (if v then .found else .noMatch, addressedState p baud a r1 r2 x v s)) := by
  unfold probeCandidate
  cases ho : nextOpen s with
  | false => exact .inl (by simp [xptOpen_fail p baud ho])
  | true =>
    rw [if_pos rfl, xptOpen_ok p baud ho]
    rcases probeOpened_cases { s with
      port := portByte p, hist := s.hist ++ [.openPort p baud true], xpt := s.xpt.afterOpen
      status := { s.status with opn := true } } with ⟨r1, x, l1, h1, e⟩ | ⟨r1, r2, x, a, v, l1, l2, h1, h2, h3, e⟩
    · exact .inr (.inl ⟨r1, x, l1, h1, by rw [e]; simp⟩)
    · exact .inr (.inr ⟨r1, r2, x, a, v, l1, l2, h1, h2, h3, by rw [e]; simp⟩)

/-- Everything an opened establishment can do (R246, R247). -/
theorem establishOpened_cases (s : State) :
    ∃ r x v, lineLegal r = true ∧ ackOk (r.take s.params.lbufMax) = v ∧
      establishOpened s = (if v then .ok else .setupFailed, { s with
        sess := if v then .sessionReady else .sessionFailed
        lbuf := r.take s.params.lbufMax
        hist := s.hist ++ (requestEvents (setmodeFrame s.addr) r ++ if v then [] else [.close])
        xpt := x
        status := { lineStatus s.status s.params.lbufMax r with
          auto := v || s.status.auto, opn := v && s.status.opn, fatal := !v || s.status.fatal } }) := by
  obtain ⟨r, x, l, e⟩ := firstRequest_cases (setmodeFrame s.addr) s
  refine ⟨r, x, ackOk (r.take s.params.lbufMax), l, rfl, ?_⟩
  simp only [establishOpened, e]
  cases ha : ackOk (r.take s.params.lbufMax) <;> simp [setAuto, setSess, setFatal, xptClose, logEvent]

/-- Everything the body of SEQ.ESTABLISH can do (R246, R247). -/
theorem establishSession_cases (p : Nat) (s : State) :
    (s.params.nports ≤ p ∧ establishSession p s = (.openFailed, { s with
      sess := .sessionFailed, status := { s.status with fatal := true } })) ∨
    (p < s.params.nports ∧ establishSession p s = (.openFailed, { s with
      sess := .sessionFailed
      hist := s.hist ++ [.openPort p 9600 false]
      xpt := s.xpt.afterOpen
      status := { s.status with fatal := true } })) ∨
    (p < s.params.nports ∧ ∃ r x v, lineLegal r = true ∧ ackOk (r.take s.params.lbufMax) = v ∧
      establishSession p s = (if v then .ok else .setupFailed, { s with
        sess := if v then .sessionReady else .sessionFailed
        port := portByte p
        lbuf := r.take s.params.lbufMax
        hist := s.hist ++ (.openPort p 9600 true :: requestEvents (setmodeFrame s.addr) r ++ if v then [] else [.close])
        xpt := x
        status := { lineStatus s.status s.params.lbufMax r with
          auto := v || s.status.auto, opn := v, fatal := !v || s.status.fatal } })) := by
  by_cases hp : p < s.params.nports
  · right
    simp only [establishSession, portLegal, hp, decide_true, if_true, establishPort]
    cases ho : nextOpen (setSess .establishing s) with
    | false => exact .inl ⟨trivial, by rw [if_neg (by simp), xptOpen_fail _ _ ho]; simp [setFatal, setSess, sessionBaud]⟩
    | true =>
      obtain ⟨r, x, v, l, h, e⟩ := establishOpened_cases (xptOpen p sessionBaud (setSess .establishing s))
      refine .inr ⟨trivial, r, x, v, l, h, ?_⟩
      rw [if_pos rfl, e, xptOpen_ok _ _ ho]
      simp [setSess, sessionBaud]
      rfl
  · exact .inl ⟨by omega, by simp [establishSession, portLegal, hp, setFatal, setSess]⟩

/-- A relation between states that is reflexive, transitive and holds over the probe of each candidate of the list holds
over the whole search; FPORT and SESS are written on FOUND (R238, R239). -/
theorem probeAll_induct {R : State → State → Prop} (hr : ∀ s, R s s) (ht : ∀ s t u, R s t → R t u → R s u)
    (cs : List (Nat × Nat)) (hc : ∀ c ∈ cs, ∀ s, R s (probeCandidate c.1 c.2 s).2)
    (hf : ∀ c ∈ cs, ∀ s, R s (setFound c.1 s)) (o : ProbeOutcome) (s : State) : R s (probeAll cs o s).2 := by
  induction cs generalizing o s with
  | nil => exact hr s
  | cons c cs ih =>
    rw [probeAll]
    split
    · exact ht _ _ _ (hc c (by simp) s) (hf c (by simp) _)
    · exact ht _ _ _ (hc c (by simp) s)
        (ih (fun d hd => hc d (by simp [hd])) (fun d hd => hf d (by simp [hd])) _ _)

end Sys2Proof.Machine
end

