-- ==== Sys2Proof/Laws/Encoding.lean ====
section
/-! SUPPORT. The two fields of a command word (30_encoding.md R90): they are what the word was made of, and make it up
again. -/

namespace Sys2Proof

/-- OP of a word made of two bytes is the first (R90). -/
@[simp] theorem fieldOp_append (a b : Byte) : fieldOp (a ++ b) = a := by
  refine BitVec.eq_of_getLsbD_eq fun i hi => ?_
  rw [fieldOp, BitVec.getLsbD_extractLsb', BitVec.getLsbD_append]
  simp [hi]

/-- IMM8 of a word made of two bytes is the second (R90). -/
@[simp] theorem fieldImm_append (a b : Byte) : fieldImm (a ++ b) = b := by
  refine BitVec.eq_of_getLsbD_eq fun i hi => ?_
  rw [fieldImm, BitVec.getLsbD_extractLsb', BitVec.getLsbD_append]
  simp [hi]

/-- A word is its two fields, OP above IMM8: the format has no other bit (R90). -/
@[simp] theorem fieldOp_append_fieldImm (w : Word) : fieldOp w ++ fieldImm w = w := by
  refine BitVec.eq_of_getLsbD_eq fun i hi => ?_
  rw [BitVec.getLsbD_append, fieldOp, fieldImm, BitVec.getLsbD_extractLsb', BitVec.getLsbD_extractLsb']
  split
  · next h => simp [h]
  · next h =>
    have h8 : 8 + (i - 8) = i := by omega
    have hd : decide (i - 8 < 8) = true := decide_eq_true (by omega)
    rw [h8, hd, Bool.true_and]

/-- Two bytes as a word and the word as bytes are inverse (20_memory.md R65). -/
theorem wordOfBytes_fields (w : Word) : wordOfBytes (fieldOp w) (fieldImm w) = w :=
  fieldOp_append_fieldImm w

end Sys2Proof
end

