-- ==== Sys2Proof/Laws/Pipeline.lean ====
section
/-! SUPPORT. Everything the frame pipeline's steps can do, said once (43_frame.md R172, R175 to R183). -/

namespace Sys2Proof.Machine

/-- The outcomes of the verify step, with the state each leaves (R176). -/
theorem verifyStep_cases (s : State) :
    (s.status.ovf = true ∧ verifyStep s = (.overflow, setVfy false s)) ∨
    (s.status.ovf = false ∧ verifyBytes s.lbuf = .short ∧ verifyStep s = (.short, setVfy false s)) ∨
    (∃ c, s.status.ovf = false ∧ verifyBytes s.lbuf = .valid c ∧
      verifyStep s = (.ok, setVfy true (setCrc c s))) ∨
    (∃ c, s.status.ovf = false ∧ verifyBytes s.lbuf = .mismatch c ∧
      verifyStep s = (.crcMismatch, setVfy false (setCrc c s))) := by
  unfold verifyStep
  cases s.status.ovf with
  | true => simp
  | false => cases h : verifyBytes s.lbuf <;> simp

/-- The frame check on payload, checksum and terminator (R172): it compares the checksum with that of the payload. -/
theorem verifyBytes_append {p k z : Bytes} {c : Byte} (hk : k.length = 3) (hc : k.getLast? = some c)
    (ht : isTerm c = false) (hz : ∀ b ∈ z, isTerm b = true) :
    verifyBytes (p ++ k ++ z) = if pack (crc16 p) = k then .valid (crc16 p) else .mismatch (crc16 p) := by
  have hl : (p ++ k).getLast? = some c := by
    rw [List.getLast?_append, hc]; rfl
  have hs : stripTerm (p ++ k ++ z) = p ++ k := by
    rw [stripTerm, dropEndWhile_append _ hz, dropEndWhile_of_last hl ht]
  have h3 : ¬ (p ++ k).length < 3 := by rw [List.length_append, hk]; omega
  have hn : (p ++ k).length - 3 = p.length := by rw [List.length_append, hk]; omega
  simp only [verifyBytes, hs, h3, if_false, dropLast3, hn, List.take_left, List.drop_left]

/-- The tokens stored are those of the pieces that hold a 0x3D, where they fit (R180). -/
theorem storeTokens_eq (max : Nat) (ps : List Bytes) (ts : List Token) (h : ts.length ≤ max) :
    storeTokens max ps ts =
      if (ts ++ ps.filterMap splitFirstEq).length ≤ max then some (ts ++ ps.filterMap splitFirstEq) else none := by
  induction ps generalizing ts with
  | nil => simp [storeTokens, h]
  | cons p ps ih =>
    rw [storeTokens]
    cases hp : splitFirstEq p with
    | none => simp [hp, ih ts h]
    | some t =>
      simp only [List.filterMap_cons, hp]
      split
      · next he => rw [if_neg]; simp; omega
      · next he =>
        rw [ih _ (by simp; omega)]
        simp

/-- The outcomes of the tokenize step on a line that was not truncated and an ASCII body (R178 to R181). -/
theorem storeFrame_eq (h : Bytes) (fields : List Bytes) (s : State) :
    storeFrame (h :: fields) (clearFrame s) =
      if (fields.filterMap splitFirstEq).length ≤ s.params.ntokMax then
        (if classify h.tail = .none then .unknownCode else .ok, { s with
          haddr := h.getD 0 0, hcode0 := h.getD 1 0, hcode1 := h.getD 2 0, hlen := BitVec.ofNat 16 h.length
          tok := fields.filterMap splitFirstEq
          status := { s.status with mtype := classify h.tail } })
      else (.overflow, clearFrame s) := by
  have key := storeTokens_eq s.params.ntokMax fields [] (Nat.zero_le _)
  simp only [List.nil_append] at key
  by_cases hl : (fields.filterMap splitFirstEq).length ≤ s.params.ntokMax
  · rw [if_pos hl] at key ⊢
    simp [storeFrame, key, setTok, setHeader, clearFrame]
  · rw [if_neg hl] at key ⊢
    simp [storeFrame, key, setHeader, clearFrame]

/-- The outcomes of the tokenize step, with the state each leaves (R181). -/
theorem tokenizeStep_cases (s : State) :
    (s.status.ovf = true ∧ tokenizeStep s = (.overflow, clearFrame s)) ∨
    (s.status.ovf = false ∧ hasNonAscii (frameBody s.lbuf) = true ∧ tokenizeStep s = (.nonascii, clearFrame s)) ∨
    (∃ h fields, s.status.ovf = false ∧ hasNonAscii (frameBody s.lbuf) = false ∧
      split 0x2C (frameBody s.lbuf) = h :: fields ∧
      ((s.params.ntokMax < (fields.filterMap splitFirstEq).length ∧ tokenizeStep s = (.overflow, clearFrame s)) ∨
       ((fields.filterMap splitFirstEq).length ≤ s.params.ntokMax ∧
        tokenizeStep s = (if classify h.tail = .none then .unknownCode else .ok, { s with
          haddr := h.getD 0 0, hcode0 := h.getD 1 0, hcode1 := h.getD 2 0, hlen := BitVec.ofNat 16 h.length
          tok := fields.filterMap splitFirstEq
          status := { s.status with mtype := classify h.tail } })))) := by
  cases ho : s.status.ovf with
  | true => exact .inl ⟨rfl, by simp [tokenizeStep, ho]⟩
  | false =>
    right
    cases ha : hasNonAscii (frameBody s.lbuf) with
    | true => exact .inl ⟨rfl, rfl, by simp [tokenizeStep, ho, ha]⟩
    | false =>
      right
      cases hs : split 0x2C (frameBody s.lbuf) with
      | nil => exact absurd hs (split_ne_nil _ _)
      | cons h fields =>
        refine ⟨h, fields, rfl, rfl, rfl, ?_⟩
        have he : tokenizeStep s = storeFrame (h :: fields) (clearFrame s) := by
          rw [← hs, tokenizeStep, if_neg (by rw [ho]; exact Bool.false_ne_true),
            if_neg (by rw [ha]; exact Bool.false_ne_true)]
        rw [he, storeFrame_eq]
        split
        · next hl => exact .inr ⟨hl, rfl⟩
        · next hl => exact .inl ⟨by omega, rfl⟩

/-- The outcomes of the whole pipeline: a failed verify step, a failed tokenize step, or a record (R183). -/
theorem processStep_cases (s : State) :
    (∃ c, c ≠ .ok ∧ (verifyStep (clearFrame s)).1 = c ∧ processStep s = verifyStep (clearFrame s)) ∨
    (∃ c v, verifyStep (clearFrame s) = (.ok, v) ∧ c ≠ .ok ∧ (tokenizeStep v).1 = c ∧
      processStep s = tokenizeStep v) ∨
    (∃ v t, verifyStep (clearFrame s) = (.ok, v) ∧ tokenizeStep v = (.ok, t) ∧
      processStep s = (.ok, emitRecord t)) := by
  unfold processStep
  by_cases hv : (verifyStep (clearFrame s)).1 = .ok
  · right
    have h1 : verifyStep (clearFrame s) = (.ok, (verifyStep (clearFrame s)).2) := by rw [← hv]
    simp only [hv, if_true, tokenizeEmit]
    by_cases ht : (tokenizeStep (verifyStep (clearFrame s)).2).1 = .ok
    · refine .inr ⟨_, (tokenizeStep (verifyStep (clearFrame s)).2).2, h1, ?_, ?_⟩
      · rw [← ht]
      · rw [if_pos ht]
    · exact .inl ⟨_, _, h1, ht, rfl, by rw [if_neg ht]⟩
  · exact .inl ⟨_, hv, rfl, by rw [if_neg hv]⟩

/-- A piece of a split is no longer than the whole (R173). -/
theorem split_mem_length {c : Byte} {s p : Bytes} (h : p ∈ split c s) : p.length ≤ s.length := by
  induction s generalizing p with
  | nil => simp [split] at h; simp [h]
  | cons b bs ih =>
    rw [split] at h
    split at h
    · rcases List.mem_cons.1 h with rfl | h
      · simp
      · have := ih h; simp only [List.length_cons]; omega
    · split at h
      · simp only [List.mem_singleton] at h; subst h; simp
      · next q qs hq =>
        rcases List.mem_cons.1 h with rfl | h
        · have := ih (p := q) (by simp [hq]); simp only [List.length_cons]; omega
        · have := ih (p := p) (by simp [hq, h]); simp only [List.length_cons]; omega

/-- The body is no longer than the line (R177). -/
theorem frameBody_length (s : Bytes) : (frameBody s).length ≤ s.length := by
  unfold frameBody dropLast3 trimWs
  obtain ⟨z, hz, -⟩ := dropEndWhile_split isWs (s.dropWhile isWs)
  have h1 := congrArg List.length hz
  have h2 := (List.dropWhile_sublist (l := s) isWs).length_le
  simp only [List.length_append, List.length_take] at h1 ⊢
  omega

/-- Each stored label and value is no longer than the line (10_state.md R43). -/
theorem token_length {s h : Bytes} {fields : List Bytes} {t : Token} (hs : split 0x2C (frameBody s) = h :: fields)
    (ht : t ∈ fields.filterMap splitFirstEq) : t.label.length ≤ s.length ∧ t.value.length ≤ s.length := by
  obtain ⟨p, hp, he⟩ := List.mem_filterMap.1 ht
  have h1 := congrArg List.length (splitFirstEq_some he).1
  have h2 : p.length ≤ (frameBody s).length := split_mem_length (c := 0x2C) (by rw [hs]; simp [hp])
  have h3 := frameBody_length s
  simp only [List.length_append, List.length_cons] at h1
  omega

end Sys2Proof.Machine
end

