-- ==== Sys2Proof/Laws/Exec.lean ====
section
/-! SUPPORT. What exec and step answer, said once: every command ends in a `finish` of the result code and state of its
body (00_scope.md R13), and the four ways a step goes (30_encoding.md R91, 60_exceptions.md R273, R287,
70_reset_and_hazards.md R300). -/

namespace Sys2Proof.Machine

/-- The result code a command ends with and the state its body leaves, before `finish` writes RES and BUSY. -/
def bodyOf (i : Instr) (s : State) : ResCode × State :=
  match i with
  | .crcClr => (.ok, { s with acc := 0x0000 })
  | .crcByte b => (.ok, { s with acc := crcStep s.acc b })
  | .crcPack => (.ok, setChk s.acc s)
  | .lineClr => (.ok, lineFlags false (lineEmpty s))
  | .linePut b => (if (linePutState b s).status.ovf then .overflow else .ok, linePutState b s)
  | .lineRead => guarded (readRefusal s) s (lineReadCode (nextLine s) (readIntoLine s), readIntoLine s)
  | .frmVerify => verifyStep s
  | .frmTokenize => tokenizeStep s
  | .frmProcess => processStep s
  | .txProbe => guarded (portRefusal s) s (.ok, xptWrite probeFrame s)
  | .txSettings => guarded (txRefusal s) s (.ok, xptWrite (settingsFrame s.addr) s)
  | .txSetmode => guarded (txRefusal s) s (.ok, xptWrite (setmodeFrame s.addr) s)
  | .rspAddr => guarded (idleRefusal s) s (takeAddress s)
  | .rspIdent => (if identOk s.params.modelId s.lbuf then .ok else .noMatch, s)
  | .rspAck => (if ackOk s.lbuf then .ok else .noMatch, s)
  | .xptOpen p =>
    guarded (openRefusal s) s (if portLegal s p.toNat then openManual p.toNat s else (.openFailed, s))
  | .xptSettle => guarded (portRefusal s) s (.ok, xptSettle s)
  | .xptFlush => guarded (portRefusal s) s (.ok, xptFlush s)
  | .xptClose => guarded (idleRefusal s) s (.ok, closeIfOpen s)
  | .addrSet a => guarded (idleRefusal s) s (.ok, setAddr a s)
  | .seqProbe p =>
    guarded (openRefusal s) s (if portLegal s p.toNat then probePort p.toNat s else (.openFailed, s))
  | .seqDiscover => guarded (openRefusal s) s (discoverAll s)
  | .seqEstablish p => guarded (establishRefusal s) s (establishSession p.toNat s)
  | .seqCycle => guarded (cycleRefusal s) s (cycleStep s)
  | .seqShutdown =>
    (.ok, setSess (shutdownSess (setAuto false (closeIfOpen s)).sess) (setAuto false (closeIfOpen s)))

/-- Every command ends in a `finish` (R13, 60_exceptions.md R270). -/
theorem exec_eq (i : Instr) (s : State) :
    exec i s = .next (finished (bodyOf i s).1 (bodyOf i s).2) := by
  cases i <;> rfl

/-- What a command's next state is, and no other outcome (R13). -/
theorem exec_next {i : Instr} {s t : State} (h : exec i s = .next t) :
    t = finished (bodyOf i s).1 (bodyOf i s).2 := by
  rw [exec_eq] at h; injection h with h; exact h.symm

/-- A refused command (R274). -/
theorem guarded_some {c : ResCode} {s : State} {b : ResCode × State} {r : Option ResCode} (h : r = some c) :
    guarded r s b = (c, s) := by subst h; rfl

/-- A command that is not refused (R274). -/
theorem guarded_none {s : State} {b : ResCode × State} {r : Option ResCode} (h : r = none) :
    guarded r s b = b := by subst h; rfl

/-- A guarded command is refused or runs its body (R274). -/
theorem guarded_cases (r : Option ResCode) (s : State) (b : ResCode × State) :
    (∃ c, r = some c ∧ guarded r s b = (c, s)) ∨ (r = none ∧ guarded r s b = b) := by
  cases r with
  | some c => exact .inl ⟨c, rfl, rfl⟩
  | none => exact .inr ⟨rfl, rfl⟩

/-- Where LINE.READ runs (42_line.md R154). -/
theorem readRefusal_eq_none {s : State} :
    readRefusal s = none ↔ (s.sess = .idle ∨ s.sess = .sessionReady) ∧ s.status.opn = true := by
  unfold readRefusal; cases s.sess <;> cases s.status.opn <;> simp

/-- Where TX.PROBE, XPT.SETTLE and XPT.FLUSH run (45_session.md R230). -/
theorem portRefusal_eq_none {s : State} : portRefusal s = none ↔ s.sess = .idle ∧ s.status.opn = true := by
  unfold portRefusal; cases s.sess <;> cases s.status.opn <;> simp

/-- Where TX.SETTINGS and TX.SETMODE run (44_wire.md R202). -/
theorem txRefusal_eq_none {s : State} :
    txRefusal s = none ↔ s.sess = .idle ∧ s.status.opn = true ∧ s.status.addrv = true := by
  unfold txRefusal; cases s.sess <;> cases s.status.opn <;> cases s.status.addrv <;> simp

/-- Where RSP.ADDR, XPT.CLOSE and ADDR.SET run (45_session.md R230). -/
theorem idleRefusal_eq_none {s : State} : idleRefusal s = none ↔ s.sess = .idle := by
  unfold idleRefusal; cases s.sess <;> simp

/-- Where XPT.OPEN, SEQ.PROBE and SEQ.DISCOVER run (45_session.md R230). -/
theorem openRefusal_eq_none {s : State} : openRefusal s = none ↔ s.sess = .idle ∧ s.status.opn = false := by
  unfold openRefusal; cases s.sess <;> cases s.status.opn <;> simp

/-- Where SEQ.ESTABLISH runs (45_session.md R246). -/
theorem establishRefusal_eq_none {s : State} :
    establishRefusal s = none ↔
      (s.sess = .idle ∨ s.sess = .found) ∧ s.status.opn = false ∧ s.status.addrv = true := by
  unfold establishRefusal; cases s.sess <;> cases s.status.opn <;> cases s.status.addrv <;> simp

/-- Where SEQ.CYCLE runs (45_session.md R250). -/
theorem cycleRefusal_eq_none {s : State} : cycleRefusal s = none ↔ s.sess = .sessionReady := by
  unfold cycleRefusal; cases s.sess <;> simp

/-- Every step answers a next state: the block has no fault and every command a meaning (60_exceptions.md R270). -/
theorem step_cases (s : State) :
    step s = .next s ∨
    (s.status.busy = false ∧ step s = .next (finished .illegal { s with host := s.host.tail })) ∨
    (∃ after rest, s.host = .reset after :: rest ∧ step s = .next (resetBlock after { s with host := rest })) ∨
    (∃ i, s.status.busy = false ∧ step s = exec i (takeInput s)) := by
  have hp : ∀ w, fetch s = present w s →
      step s = .next s ∨
      (s.status.busy = false ∧ step s = .next (finished .illegal { s with host := s.host.tail })) ∨
      (∃ after rest, s.host = .reset after :: rest ∧ step s = .next (resetBlock after { s with host := rest })) ∨
      (∃ i, s.status.busy = false ∧ step s = exec i (takeInput s)) := by
    intro w hw
    unfold present at hw
    cases hb : s.status.busy with
    | true => rw [if_pos hb] at hw; exact .inl (by unfold step; rw [hw])
    | false =>
      rw [if_neg (by rw [hb]; exact Bool.false_ne_true)] at hw
      cases hd : decode w with
      | command i => rw [hd] at hw; exact .inr (.inr (.inr ⟨i, rfl, by unfold step; rw [hw]⟩))
      | illegal e => rw [hd] at hw; exact .inr (.inl ⟨rfl, by unfold step; rw [hw]; rfl⟩)
  obtain ⟨l, hh⟩ : ∃ l, s.host = l := ⟨_, rfl⟩
  cases l with
  | nil => left; simp [step, fetch, hh]
  | cons x rest =>
    cases x with
    | word w => exact hp w (by unfold fetch; rw [hh])
    | wordBytes a b => exact hp (wordOfBytes a b) (by unfold fetch; rw [hh])
    | reset after => exact .inr (.inr (.inl ⟨after, rest, hh, by simp [step, fetch, hh]⟩))

/-- What a step that answers a next state did: nothing, ILLEGAL, a reset, or a command (30_encoding.md R91). -/
theorem step_next {s t : State} (h : step s = .next t) :
    t = s ∨ (s.status.busy = false ∧ t = finished .illegal { s with host := s.host.tail }) ∨
    (∃ after rest, s.host = .reset after :: rest ∧ t = resetBlock after { s with host := rest }) ∨
    (∃ i, s.status.busy = false ∧ exec i (takeInput s) = .next t) := by
  rcases step_cases s with e | ⟨hb, e⟩ | ⟨after, rest, hr, e⟩ | ⟨i, hb, e⟩
  · rw [h] at e; injection e with e; exact .inl e
  · rw [h] at e; injection e with e; exact .inr (.inl ⟨hb, e⟩)
  · rw [h] at e; injection e with e; exact .inr (.inr (.inl ⟨after, rest, hr, e⟩))
  · rw [h] at e; exact .inr (.inr (.inr ⟨i, hb, e.symm⟩))

/-- A property of states that the taking of an input, `finish`, a reset and every command's body keep is kept by every
step. -/
theorem step_keeps {P : State → Prop} (hh : ∀ s h, P s → P { s with host := h }) (ha : ∀ s, P s → P (accept s))
    (hf : ∀ c s, P s → P (finished c s)) (hr : ∀ after s, P s → P (resetBlock after s))
    (hb : ∀ i s, P s → P (bodyOf i s).2) {s t : State} (h : step s = .next t) (hs : P s) : P t := by
  rcases step_next h with rfl | ⟨-, rfl⟩ | ⟨after, rest, -, rfl⟩ | ⟨i, -, e⟩
  · exact hs
  · exact hf _ _ (hh _ _ hs)
  · exact hr _ _ (hh _ _ hs)
  · rw [exec_next e]; exact hf _ _ (hb _ _ (ha _ (hh _ _ hs)))

end Sys2Proof.Machine
end

