-- ==== Sys2Proof/Laws/Frames.lean ====
section
/-! SUPPORT. What each operation can change at most: the state it leaves as an update of the state before it. Every field
not named in the update is unchanged. -/

namespace Sys2Proof.Machine

/-- The verify step writes ACC, CHK0 to CHK2 and VFY (43_frame.md R176). -/
theorem verifyStep_frame (s : State) : ∃ a k0 k1 k2 v,
    (verifyStep s).2 = { s with
      acc := a, chk0 := k0, chk1 := k1, chk2 := k2, status := { s.status with vfy := v } } := by
  rcases verifyStep_cases s with ⟨-, e⟩ | ⟨-, -, e⟩ | ⟨c, -, -, e⟩ | ⟨c, -, -, e⟩ <;> rw [e] <;> exact ⟨_, _, _, _, _, rfl⟩

/-- The tokenize step writes the frame registers and MTYPE (43_frame.md R181). -/
theorem tokenizeStep_frame (s : State) : ∃ a c0 c1 n ts m,
    (tokenizeStep s).2 = { s with
      haddr := a, hcode0 := c0, hcode1 := c1, hlen := n, tok := ts, status := { s.status with mtype := m } } := by
  rcases tokenizeStep_cases s with ⟨-, e⟩ | ⟨-, -, e⟩ | ⟨h, fields, -, -, -, ⟨-, e⟩ | ⟨-, e⟩⟩ <;> rw [e] <;>
    exact ⟨_, _, _, _, _, _, rfl⟩

/-- The whole pipeline writes what its two steps write, and appends one record on OK, else nothing (43_frame.md R183). -/
theorem processStep_frame (s : State) : ∃ a k0 k1 k2 v ha c0 c1 n ts m es,
    (processStep s).2 = { s with
      acc := a, chk0 := k0, chk1 := k1, chk2 := k2, haddr := ha, hcode0 := c0, hcode1 := c1, hlen := n, tok := ts
      hist := s.hist ++ es
      status := { s.status with vfy := v, mtype := m } } ∧
    es = if (processStep s).1 = .ok then [.emit (tokenRecord (processStep s).2)] else [] := by
  obtain ⟨a, k0, k1, k2, v, hv⟩ := verifyStep_frame (clearFrame s)
  rcases processStep_cases s with ⟨c, hc, h, e⟩ | ⟨c, u, hu, hc, h, e⟩ | ⟨u, t, hu, ht, e⟩
  · rw [e, hv, h, if_neg hc]
    exact ⟨_, _, _, _, _, _, _, _, _, _, _, _, by rw [List.append_nil]; rfl, rfl⟩
  · obtain ⟨ha, c0, c1, n, ts, m, ht⟩ := tokenizeStep_frame u
    rw [hu] at hv
    simp only at hv
    rw [e, ht, h, if_neg hc, hv]
    exact ⟨_, _, _, _, _, _, _, _, _, _, _, _, by rw [List.append_nil]; rfl, rfl⟩
  · obtain ⟨ha, c0, c1, n, ts, m, hf⟩ := tokenizeStep_frame u
    rw [hu] at hv
    rw [ht] at hf
    simp only at hv hf
    rw [e, if_pos rfl]
    refine ⟨a, k0, k1, k2, v, ha, c0, c1, n, ts, m, _, ?_, rfl⟩
    show emitRecord t = _
    rw [emitRecord, logEvent, hf, hv]; rfl

/-- A search over candidates writes ADDR, PORT, the line with its flags, OPEN, ADDRV, and on FOUND also FPORT and SESS; it
appends at most nine events a candidate (45_session.md R237 to R239, 70_reset_and_hazards.md R313). -/
theorem probeAll_frame (cs : List (Nat × Nat)) (o : ProbeOutcome) (s : State) :
    ∃ a pt fp q l es x tm ov vf av op,
      (probeAll cs o s).2 = { s with
        addr := a, port := pt, fport := fp, sess := q, lbuf := l, hist := s.hist ++ es, xpt := x
        status := { s.status with term := tm, ovf := ov, vfy := vf, addrv := av, opn := op } } ∧
      es.length ≤ 9 * cs.length := by
  induction cs generalizing o s with
  | nil =>
    exact ⟨_, _, _, _, _, [], _, _, _, _, _, _, by rw [List.append_nil]; rfl, Nat.le_refl _⟩
  | cons c cs ih =>
    obtain ⟨a, pt, l, es, x, tm, ov, vf, av, op, e, hl⟩ : ∃ a pt l es x tm ov vf av op,
        (probeCandidate c.1 c.2 s).2 = { s with
          addr := a, port := pt, lbuf := l, hist := s.hist ++ es, xpt := x
          status := { s.status with term := tm, ovf := ov, vfy := vf, addrv := av, opn := op } } ∧
        es.length ≤ 9 := by
      rcases probeCandidate_cases c.1 c.2 s with e | ⟨r1, x, -, -, e⟩ | ⟨r1, r2, x, a, v, -, -, -, -, -, e⟩ <;>
        rw [e] <;> exact ⟨_, _, _, _, _, _, _, _, _, _, rfl, by simp⟩
    rw [probeAll]
    split
    · rw [e]
      exact ⟨_, _, _, _, _, es, _, _, _, _, _, _, rfl, by rw [List.length_cons]; omega⟩
    · obtain ⟨a', pt', fp', q', l', es', x', tm', ov', vf', av', op', e', hl'⟩ :=
        ih (probeCandidate c.1 c.2 s).1 (probeCandidate c.1 c.2 s).2
      rw [e', e]
      exact ⟨_, _, _, _, _, es ++ es', _, _, _, _, _, _, by rw [← List.append_assoc],
        by rw [List.length_append, List.length_cons]; omega⟩

/-- The candidates opened in two lists of events one after the other. -/
@[simp] theorem openedCandidates_append (es fs : List Event) :
    openedCandidates (es ++ fs) = openedCandidates es ++ openedCandidates fs := by
  induction es with
  | nil => rfl
  | cons e es ih => cases e <;> simp [openedCandidates, ih]

/-- Clearing OPEN and ADDRV where they are clear changes nothing. -/
theorem Status.closed {t : Status} (hc : t.opn = false) (ha : t.addrv = false) :
    { t with addrv := false, opn := false } = t := by
  cases t; simp only at hc ha; subst hc; subst ha; rfl

/-- The lines read in two lists of events one after the other. -/
@[simp] theorem linesRead_append (es fs : List Event) : linesRead (es ++ fs) = linesRead es ++ linesRead fs := by
  induction es with
  | nil => rfl
  | cons e es ih => cases e <;> simp [linesRead, ih]

/-- The ports opened in two lists of events one after the other. -/
@[simp] theorem portsOpened_append (es fs : List Event) :
    portsOpened (es ++ fs) = portsOpened es ++ portsOpened fs := by
  induction es with
  | nil => rfl
  | cons e es ih => cases e <;> simp [portsOpened, ih]; split <;> simp

/-- The addresses asked in two lists of events one after the other. -/
@[simp] theorem addressesAsked_append (es fs : List Event) :
    addressesAsked (es ++ fs) = addressesAsked es ++ addressesAsked fs := by
  induction es with
  | nil => rfl
  | cons e es ih => cases e <;> simp [addressesAsked, ih]

/-- PORT, ADDR and the line follow from the new events (10_state.md R25, R30, R31, R39, 45_session.md R237). -/
abbrev Follows (s t : State) (es : List Event) : Prop :=
  portFollows s t es ∧ addrFollows s t es ∧ lineFollows s t es

/-- With no event PORT, ADDR and the line are as before. -/
theorem Follows.nil (s : State) : Follows s s [] := ⟨rfl, rfl, ⟨rfl, rfl, rfl⟩, rfl⟩

/-- What follows from two lists of events one after the other. -/
theorem Follows.trans {s u t : State} {es fs : List Event} (hp : t.params = u.params) (h1 : Follows s u es)
    (h2 : Follows u t fs) : Follows s t (es ++ fs) := by
  obtain ⟨p1, a1, l1⟩ := h1
  obtain ⟨p2, a2, l2⟩ := h2
  refine ⟨?_, ?_, ?_⟩
  · unfold portFollows at *
    rw [p2, p1, portsOpened_append, List.map_append, List.getLastD_eq_getLast?, List.getLastD_eq_getLast?,
      List.getLastD_eq_getLast?, List.getLast?_append]
    cases ((portsOpened fs).map (BitVec.ofNat 8)).getLast? <;> rfl
  · unfold addrFollows at *
    rw [a2, a1, addressesAsked_append, List.getLastD_eq_getLast?, List.getLastD_eq_getLast?,
      List.getLastD_eq_getLast?, List.getLast?_append]
    cases (addressesAsked fs).getLast? <;> rfl
  · unfold lineFollows at *
    rw [linesRead_append, List.getLast?_append]
    cases hf : (linesRead fs).getLast? with
    | some r => rw [hf] at l2; exact l2
    | none =>
      rw [hf] at l2
      obtain ⟨⟨e1, e2, e3⟩, e4⟩ := l2
      rw [Option.none_or]
      cases he : (linesRead es).getLast? with
      | none =>
        rw [he] at l1
        obtain ⟨⟨f1, f2, f3⟩, f4⟩ := l1
        exact ⟨⟨e1.trans f1, e2.trans f2, e3.trans f3⟩, e4.trans f4⟩
      | some r =>
        rw [he] at l1
        obtain ⟨f1, f2, f3, f4⟩ := l1
        exact ⟨by rw [e1, f1, hp], by rw [e2, f2, hp], e3.trans f3, e4.trans f4⟩

/-- How the probe of one candidate ends, the port closed and no address held before it (R237): it finds the device, or fails
with no address held; PORT, ADDR and the line follow from its events. -/
theorem probeCandidate_ends (p b : Nat) (s : State) (hc : s.status.opn = false) (ha : s.status.addrv = false) :
    (∃ a r1 r2 x, lineLegal r1 = true ∧ lineLegal r2 = true ∧ (r1.take s.params.lbufMax).head? = some a ∧
      isAlnum a = true ∧ identOk s.params.modelId (r2.take s.params.lbufMax) = true ∧
      probeCandidate p b s = (.found, addressedState p b a r1 r2 x true s)) ∨
    (∃ o a pt l es x tm ov vf t, o ≠ .found ∧
      candidateFails s.params p b es o.code ∧ Follows s t es ∧ probeCandidate p b s = (o, t) ∧
      t = { s with
        addr := a, port := pt, lbuf := l, hist := s.hist ++ es, xpt := x
        status := { s.status with term := tm, ovf := ov, vfy := vf, addrv := false, opn := false } }) := by
  rcases probeCandidate_cases p b s with e | ⟨r1, x, l1, h1, e⟩ | ⟨r1, r2, x, a, v, l1, l2, h1, h2, h3, e⟩
  · refine .inr ⟨.openFailed, s.addr, s.port, s.lbuf, [.openPort p b false], s.xpt.afterOpen, s.status.term, s.status.ovf,
      s.status.vfy, _, nofun, .inl ⟨rfl, rfl⟩, ?_, e, ?_⟩
    · exact ⟨rfl, rfl, ⟨rfl, rfl, rfl⟩, rfl⟩
    · congr 1
      exact (Status.closed hc ha).symm
  · refine .inr ⟨.noAddressReply, s.addr, portByte p, r1.take s.params.lbufMax,
      .openPort p b true :: requestEvents probeFrame r1 ++ [.close], x, endsInLf r1,
      decide (s.params.lbufMax < r1.length), false, _, nofun, .inr (.inl ⟨rfl, r1, rfl, ?_⟩), ?_, e, ?_⟩
    · intro a hh
      cases hl : r1.take s.params.lbufMax with
      | nil => rw [hl] at hh; exact absurd hh nofun
      | cons c cs => rw [hl] at hh h1; injection hh with hh; subst hh; exact h1
    · exact ⟨rfl, rfl, rfl, rfl, endsInLf_eq r1, rfl⟩
    · congr 1
      exact Status.ext rfl rfl rfl ha rfl rfl rfl rfl rfl rfl
  · cases v with
    | true => exact .inl ⟨a, r1, r2, x, l1, l2, h1, h2, h3, e⟩
    | false =>
      exact .inr ⟨.noMatch, a, portByte p, r2.take s.params.lbufMax, addressedEvents p b a r1 r2, x, endsInLf r2,
        decide (s.params.lbufMax < r2.length), false, addressedState p b a r1 r2 x false s, nofun,
        .inr (.inr ⟨rfl, a, r1, r2, rfl, h1, h2, h3⟩), ⟨rfl, rfl, rfl, rfl, endsInLf_eq r2, rfl⟩, e, rfl⟩

/-- Failing exchanges open their candidates, each once, in order. -/
theorem openedCandidates_of_failing {q : Params} {cs : List (Nat × Nat)} {es : List Event}
    (h : failingExchanges q cs es) : openedCandidates es = cs := by
  induction cs generalizing es with
  | nil => rw [show es = [] from h]; rfl
  | cons c cs ih =>
    obtain ⟨first, rest, code, rfl, hf, hr⟩ := h
    rw [openedCandidates_append, ih hr]
    rcases hf with ⟨-, rfl⟩ | ⟨-, r, rfl, -⟩ | ⟨-, a, r1, r2, rfl, -, -, -⟩ <;> rfl

/-- Failing exchanges with one candidate more, at the end. -/
theorem failingExchanges_concat {q : Params} {cs : List (Nat × Nat)} {es last : List Event} {c : Nat × Nat}
    {code : ResCode} (h : failingExchanges q cs es) (hl : candidateFails q c.1 c.2 last code) :
    failingExchanges q (cs ++ [c]) (es ++ last) := by
  induction cs generalizing es with
  | nil =>
    rw [show es = [] from h]
    exact ⟨last, [], code, (List.append_nil last).symm, hl, rfl⟩
  | cons d cs ih =>
    obtain ⟨first, rest, code', rfl, hf, hr⟩ := h
    exact ⟨first, rest ++ last, code', List.append_assoc .., hf, ih hr⟩

/-- How a search ends (R238, R239). With the port closed before it, it is closed after it. On FOUND, the events are failing
exchanges with the candidates before, then the nine of the candidate found, whose replies gave the address and the model
identifier; else every candidate failed, and the outcome is the last one's. PORT, ADDR and the line follow from the
events. -/
theorem probeAll_ends (cs : List (Nat × Nat)) (o : ProbeOutcome) (s : State) (hn : o ≠ .found)
    (hc : s.status.opn = false) (ha : s.status.addrv = false) :
    (∃ p b a r1 r2 x tried before rest t, lineLegal r1 = true ∧ lineLegal r2 = true ∧
      (r1.take s.params.lbufMax).head? = some a ∧ isAlnum a = true ∧
      identOk s.params.modelId (r2.take s.params.lbufMax) = true ∧
      cs = tried ++ (p, b) :: rest ∧ failingExchanges s.params tried before ∧
      Follows s t (before ++ addressedEvents p b a r1 r2) ∧ probeAll cs o s = (.found, t) ∧
      t = { s with
        addr := a, port := portByte p, fport := portByte p, sess := .found
        lbuf := r2.take s.params.lbufMax
        hist := s.hist ++ (before ++ addressedEvents p b a r1 r2)
        xpt := x
        status := { lineStatus s.status s.params.lbufMax r2 with opn := false, addrv := true } }) ∨
    (∃ o' a pt l es x tm ov vf t, o' ≠ .found ∧
      (cs = [] ∧ es = [] ∧ o' = o ∨ ∃ tried c before last, cs = tried ++ [c] ∧ es = before ++ last ∧
        failingExchanges s.params tried before ∧ candidateFails s.params c.1 c.2 last o'.code) ∧
      Follows s t es ∧ probeAll cs o s = (o', t) ∧
      t = { s with
        addr := a, port := pt, lbuf := l, hist := s.hist ++ es, xpt := x
        status := { s.status with term := tm, ovf := ov, vfy := vf, addrv := false, opn := false } }) := by
  induction cs generalizing o s with
  | nil =>
    refine .inr ⟨o, s.addr, s.port, s.lbuf, [], s.xpt, s.status.term, s.status.ovf, s.status.vfy, s, hn,
      .inl ⟨rfl, rfl, rfl⟩, Follows.nil s, rfl, ?_⟩
    rw [List.append_nil]
    exact congrArg (fun t => { s with status := t }) (Status.closed hc ha).symm
  | cons c cs ih =>
    rcases probeCandidate_ends c.1 c.2 s hc ha with
      ⟨a, r1, r2, x, l1, l2, h1, h2, h3, e⟩ | ⟨o1, a, pt, l, es, x, tm, ov, vf, u, h1, hl, hf, e, eu⟩
    · exact .inl ⟨c.1, c.2, a, r1, r2, x, [], [], cs, setFound c.1 (addressedState c.1 c.2 a r1 r2 x true s), l1, l2,
        h1, h2, h3, rfl, rfl, ⟨rfl, rfl, rfl, rfl, endsInLf_eq r2, rfl⟩, by rw [probeAll, e, if_pos rfl], rfl⟩
    · have e2 : probeAll (c :: cs) o s = probeAll cs o1 u := by
        rw [probeAll, e, if_neg h1]
      have hp : u.params = s.params := by rw [eu]
      rw [e2]
      rcases ih o1 u h1 (by rw [eu]) (by rw [eu]) with
        ⟨p, b, a', r1, r2, x', tried, before, rest, t, l1, l2, h3, h4, h5, h6, h7, hf', e3, et⟩ |
        ⟨o', a', pt', l', es', x', tm', ov', vf', t, h3, hl', hf', e3, et⟩
      · refine .inl ⟨p, b, a', r1, r2, x', c :: tried, es ++ before, rest, t, l1, l2, by rw [← hp]; exact h3, h4,
          by rw [← hp]; exact h5, by rw [h6]; rfl, ⟨es, before, o1.code, rfl, hl, by rw [← hp]; exact h7⟩, ?_, e3, ?_⟩
        · rw [List.append_assoc]; exact hf.trans (by rw [et]) hf'
        · rw [et, eu]; simp only [List.append_assoc]
      · refine .inr ⟨o', a', pt', l', es ++ es', x', tm', ov', vf', t, h3, .inr ?_, hf.trans (by rw [et]) hf', e3, ?_⟩
        · rcases hl' with ⟨rfl, rfl, rfl⟩ | ⟨tried, d, before, last, rfl, rfl, ht, hl''⟩
          · exact ⟨[], c, [], es, rfl, List.append_nil es, rfl, hl⟩
          · exact ⟨c :: tried, d, es ++ before, last, rfl, (List.append_assoc ..).symm,
              ⟨es, before, o1.code, rfl, hl, by rw [← hp]; exact ht⟩, by rw [← hp]; exact hl''⟩
        · rw [et, eu]; simp only [List.append_assoc]

/-- Every step is made of these updates: a property of states that each of them keeps is kept by every step. The first of
them after `finish` and reset covers all that no rule of the frame pipeline or of the CRC commands writes. -/
theorem step_updates {P : State → Prop} (hh : ∀ s h, P s → P { s with host := h }) (ha : ∀ s, P s → P (accept s))
    (hf : ∀ c s, P s → P (finished c s)) (hr : ∀ after s, P s → P (resetBlock after s))
    (hi : ∀ s a p fp q l es x tm ov av op vf au ft, P s → P { s with
      addr := a, port := p, fport := fp, sess := q, lbuf := l, hist := es, xpt := x
      status := { s.status with
        term := tm, ovf := ov, addrv := av, opn := op, vfy := vf, auto := au, fatal := ft } })
    (hacc : ∀ s a, P s → P { s with acc := a }) (hchk : ∀ s c, P s → P (setChk c s))
    (hcl : ∀ s, P s → P (clearFrame s))
    (htk : ∀ s (h : Bytes) ts, P s → P { s with
      haddr := h.getD 0 0, hcode0 := h.getD 1 0, hcode1 := h.getD 2 0, hlen := BitVec.ofNat 16 h.length
      tok := ts
      status := { s.status with mtype := classify h.tail } })
    {s t : State} (h : step s = .next t) (hs : P s) : P t := by
  suffices key : ∀ i s, P s → P (bodyOf i s).2 from step_keeps hh ha hf hr key h hs
  clear h hs s t
  intro i s h
  have hts : ∀ s, P s → P (tokenizeStep s).2 := by
    intro s hs
    rcases tokenizeStep_cases s with ⟨-, e⟩ | ⟨-, -, e⟩ | ⟨hd, fields, -, -, -, ⟨-, e⟩ | ⟨-, e⟩⟩ <;> rw [e]
    · exact hcl _ hs
    · exact hcl _ hs
    · exact hcl _ hs
    · exact htk _ _ _ hs
  have hv : ∀ s v, P s → P (setVfy v s) := fun s v h =>
    hi s s.addr s.port s.fport s.sess s.lbuf s.hist s.xpt s.status.term s.status.ovf s.status.addrv s.status.opn v
      s.status.auto s.status.fatal h
  have hvs : ∀ s, P s → P (verifyStep s).2 := by
    intro s hs
    rcases verifyStep_cases s with ⟨-, e⟩ | ⟨-, -, e⟩ | ⟨c, -, -, e⟩ | ⟨c, -, -, e⟩ <;> rw [e]
    · exact hv _ _ hs
    · exact hv _ _ hs
    · exact hv _ _ (hchk _ _ (hacc _ _ hs))
    · exact hv _ _ (hchk _ _ (hacc _ _ hs))
  have he : ∀ s e, P s → P (logEvent e s) := fun s e h =>
    hi s s.addr s.port s.fport s.sess s.lbuf (s.hist ++ [e]) s.xpt s.status.term s.status.ovf s.status.addrv
      s.status.opn s.status.vfy s.status.auto s.status.fatal h
  have hps : ∀ s, P s → P (processStep s).2 := by
    intro s hs
    have h1 := hvs _ (hcl _ hs)
    rcases processStep_cases s with ⟨c, -, -, e⟩ | ⟨c, u, hu, -, -, e⟩ | ⟨u, t, hu, ht, e⟩ <;> rw [e]
    · exact h1
    · rw [hu] at h1; exact hts _ h1
    · rw [hu] at h1
      have h2 := hts _ h1
      rw [ht] at h2
      exact he _ _ h2
  have hrl : ∀ s, P s → P (readIntoLine s) := by
    intro s hs
    rw [readIntoLine_eq]
    exact hi s _ _ _ _ _ _ _ _ _ s.status.addrv s.status.opn _ s.status.auto s.status.fatal hs
  cases i <;> simp only [bodyOf]
  case crcClr => exact hacc _ _ h
  case crcByte => exact hacc _ _ h
  case crcPack => exact hchk _ _ h
  case lineClr => exact hi s _ _ _ _ _ _ _ _ _ s.status.addrv s.status.opn _ s.status.auto s.status.fatal h
  case linePut b =>
    rw [linePutState_eq]
    exact hi s _ _ _ _ _ _ _ _ _ s.status.addrv s.status.opn _ s.status.auto s.status.fatal h
  case rspIdent => exact h
  case rspAck => exact h
  case frmVerify => exact hvs _ h
  case frmTokenize => exact hts _ h
  case frmProcess => exact hps _ h
  case seqShutdown =>
    simp only [closeIfOpen]
    split <;> exact hi s _ _ _ _ _ _ _ s.status.term s.status.ovf s.status.addrv _ s.status.vfy _ s.status.fatal h
  all_goals
    rcases guarded_cases _ s _ with ⟨c, -, e⟩ | ⟨-, e⟩ <;> rw [e] <;> [exact h; skip]
  case lineRead => exact hrl _ h
  case txProbe => exact he _ _ h
  case txSettings => exact he _ _ h
  case txSetmode => exact he _ _ h
  case rspAddr =>
    unfold takeAddress
    split
    · exact hi s _ _ _ _ _ _ _ s.status.term s.status.ovf _ s.status.opn s.status.vfy s.status.auto s.status.fatal h
    · exact h
  case xptOpen p =>
    split
    · exact hi s _ _ _ _ _ _ _ s.status.term s.status.ovf s.status.addrv _ s.status.vfy s.status.auto
        s.status.fatal h
    · exact h
  case xptSettle => exact he _ _ h
  case xptFlush =>
    exact hi s _ _ _ _ _ _ _ s.status.term s.status.ovf s.status.addrv s.status.opn s.status.vfy s.status.auto
      s.status.fatal h
  case xptClose =>
    unfold closeIfOpen
    split
    · exact hi s _ _ _ _ _ _ _ s.status.term s.status.ovf s.status.addrv _ s.status.vfy s.status.auto
        s.status.fatal h
    · exact h
  case addrSet =>
    exact hi s _ _ _ _ _ _ _ s.status.term s.status.ovf _ s.status.opn s.status.vfy s.status.auto s.status.fatal h
  case seqProbe p =>
    split
    · obtain ⟨_, _, _, _, _, es, _, _, _, _, _, _, e, -⟩ :=
        probeAll_frame (portCandidates s p.toNat) .openFailed (startScan s)
      simp only [probePort, e]
      split <;> exact hi s _ _ _ _ _ _ _ _ _ _ _ _ s.status.auto s.status.fatal h
    · exact h
  case seqDiscover =>
    obtain ⟨_, _, _, _, _, es, _, _, _, _, _, _, e, -⟩ := probeAll_frame (allCandidates s) .openFailed (startScan s)
    simp only [discoverAll, e]
    split
    · exact hi s _ _ _ _ _ _ _ _ _ _ _ _ s.status.auto s.status.fatal h
    · exact hi s _ _ _ _ _ _ _ _ _ _ _ _ s.status.auto _ h
  case seqEstablish p =>
    rcases establishSession_cases p.toNat s with ⟨-, e⟩ | ⟨-, e⟩ | ⟨-, r, x, v, -, -, e⟩ <;> rw [e]
    · exact hi s _ _ _ _ _ _ _ s.status.term s.status.ovf s.status.addrv s.status.opn s.status.vfy s.status.auto _ h
    · exact hi s _ _ _ _ _ _ _ s.status.term s.status.ovf s.status.addrv s.status.opn s.status.vfy s.status.auto _ h
    · exact hi s _ _ _ _ _ _ _ _ _ s.status.addrv _ _ _ _ h
  case seqCycle =>
    simp only [cycleStep]
    split
    · exact hcl _ (hrl _ h)
    · exact hps _ (hrl _ h)

end Sys2Proof.Machine
end

