-- ==== Sys2Proof/Laws/Memory.lean ====
section
/-! SUPPORT. The two stores keep their canonical form, `Memory.wf` (10_state.md R41, R43): every operation that writes
LBUF or the token store, and the reset state. -/

namespace Sys2Proof.Machine

/-- The reset state's stores are empty (R47). -/
theorem reset_memory_wf : Memory.wf State.reset := by decide

/-- A reset empties the stores (70_reset_and_hazards.md R300). -/
theorem resetBlock_wf (after : Transport) (s : State) : Memory.wf (resetBlock after s) :=
  ⟨Nat.zero_le _, Nat.zero_le _, nofun⟩

/-- Appending a byte keeps the form: a byte that does not fit is dropped (42_line.md R150). -/
theorem lbufAppend_wf {s : State} (b : Byte) (h : Memory.wf s) : Memory.wf (lbufAppend b s) := by
  unfold lbufAppend
  split
  · next hl => exact ⟨by simp; omega, h.2⟩
  · exact h

/-- Appending a sequence keeps the form (42_line.md R151). -/
theorem lbufAppendAll_wf {s : State} (l : Bytes) (h : Memory.wf s) : Memory.wf (lbufAppendAll l s) := by
  induction l generalizing s with
  | nil => exact h
  | cons b bs ih => exact ih (lbufAppend_wf b h)

/-- Loading a line keeps the form (42_line.md R151). -/
theorem lineLoad_wf {s : State} (l : Bytes) (h : Memory.wf s) : Memory.wf (lineLoad l s) := by
  rw [lineLoad_eq]; exact ⟨by simp, h.2⟩

/-- Putting a byte keeps the form (42_line.md R153). -/
theorem linePutState_wf {s : State} (b : Byte) (h : Memory.wf s) : Memory.wf (linePutState b s) :=
  lbufAppend_wf b h

/-- Emptying the line keeps the form (42_line.md R152). -/
theorem lineEmpty_wf {s : State} (h : Memory.wf s) : Memory.wf (lineEmpty s) :=
  ⟨Nat.zero_le _, h.2⟩

/-- Reading a line keeps the form (42_line.md R154). -/
theorem readIntoLine_wf {s : State} (h : Memory.wf s) : Memory.wf (readIntoLine s) := by
  rw [readIntoLine_eq]; exact ⟨by simp, h.2⟩

/-- Clearing the frame registers keeps the form (43_frame.md R175). -/
theorem clearFrame_wf {s : State} (h : Memory.wf s) : Memory.wf (clearFrame s) :=
  ⟨h.1, Nat.zero_le _, nofun⟩

/-- Tokenizing keeps the form: no more tokens than fit are stored, each made of the line's bytes (43_frame.md R180). -/
theorem tokenizeStep_wf {s : State} (h : Memory.wf s) : Memory.wf (tokenizeStep s).2 := by
  rcases tokenizeStep_cases s with ⟨-, e⟩ | ⟨-, -, e⟩ | ⟨hd, fields, -, -, hs, ⟨-, e⟩ | ⟨hl, e⟩⟩ <;> rw [e]
  · exact clearFrame_wf h
  · exact clearFrame_wf h
  · exact clearFrame_wf h
  · refine ⟨h.1, hl, fun t ht => ?_⟩
    have ht := token_length hs ht
    exact ⟨ht.1.trans h.1, ht.2.trans h.1⟩

end Sys2Proof.Machine
end

