-- ==== Sys2Proof/Laws/PerInstr.lean ====
section
/-! SUPPORT. A statement about every command as syntax, one lemma per constructor: its word lies in its row of
spec/opcode_table.json, and is a legal word (30_encoding.md R92, R94, R95). -/

namespace Sys2Proof.Laws.TableRow

/-- The mask and the match of a command's row, copied from spec/opcode_table.json. -/
def row : Instr → Word × Word
  | .crcClr => (0xFFFF, 0x1000)
  | .crcByte _ => (0xFF00, 0x1100)
  | .crcPack => (0xFFFF, 0x1200)
  | .lineClr => (0xFFFF, 0x2000)
  | .linePut _ => (0xFF00, 0x2100)
  | .lineRead => (0xFFFF, 0x2200)
  | .frmVerify => (0xFFFF, 0x3000)
  | .frmTokenize => (0xFFFF, 0x3100)
  | .frmProcess => (0xFFFF, 0x3200)
  | .txProbe => (0xFFFF, 0x4000)
  | .txSettings => (0xFFFF, 0x4100)
  | .txSetmode => (0xFFFF, 0x4200)
  | .rspAddr => (0xFFFF, 0x4800)
  | .rspIdent => (0xFFFF, 0x4900)
  | .rspAck => (0xFFFF, 0x4A00)
  | .xptOpen _ => (0xFF00, 0x5000)
  | .xptSettle => (0xFFFF, 0x5100)
  | .xptFlush => (0xFFFF, 0x5200)
  | .xptClose => (0xFFFF, 0x5300)
  | .addrSet _ => (0xFF00, 0x5800)
  | .seqProbe _ => (0xFF00, 0x6000)
  | .seqDiscover => (0xFFFF, 0x6100)
  | .seqEstablish _ => (0xFF00, 0x6200)
  | .seqCycle => (0xFFFF, 0x6300)
  | .seqShutdown => (0xFFFF, 0x6400)

/-- The command's word agrees with its row's match under the row's mask, and is well formed. -/
def Statement (i : Instr) : Prop :=
  encode i &&& (row i).1 = (row i).2 ∧ i.wellFormed = true

/-- CRC.CLR -/
theorem crcClr : Statement .crcClr := by unfold Statement; decide

/-- CRC.BYTE -/
theorem crcByte (b : Byte) : Statement (.crcByte b) := by revert b; unfold Statement; decide +kernel

/-- CRC.PACK -/
theorem crcPack : Statement .crcPack := by unfold Statement; decide

/-- LINE.CLR -/
theorem lineClr : Statement .lineClr := by unfold Statement; decide

/-- LINE.PUT -/
theorem linePut (b : Byte) : Statement (.linePut b) := by revert b; unfold Statement; decide +kernel

/-- LINE.READ -/
theorem lineRead : Statement .lineRead := by unfold Statement; decide

/-- FRM.VERIFY -/
theorem frmVerify : Statement .frmVerify := by unfold Statement; decide

/-- FRM.TOKENIZE -/
theorem frmTokenize : Statement .frmTokenize := by unfold Statement; decide

/-- FRM.PROCESS -/
theorem frmProcess : Statement .frmProcess := by unfold Statement; decide

/-- TX.PROBE -/
theorem txProbe : Statement .txProbe := by unfold Statement; decide

/-- TX.SETTINGS -/
theorem txSettings : Statement .txSettings := by unfold Statement; decide

/-- TX.SETMODE -/
theorem txSetmode : Statement .txSetmode := by unfold Statement; decide

/-- RSP.ADDR -/
theorem rspAddr : Statement .rspAddr := by unfold Statement; decide

/-- RSP.IDENT -/
theorem rspIdent : Statement .rspIdent := by unfold Statement; decide

/-- RSP.ACK -/
theorem rspAck : Statement .rspAck := by unfold Statement; decide

/-- XPT.OPEN -/
theorem xptOpen (b : Byte) : Statement (.xptOpen b) := by revert b; unfold Statement; decide +kernel

/-- XPT.SETTLE -/
theorem xptSettle : Statement .xptSettle := by unfold Statement; decide

/-- XPT.FLUSH -/
theorem xptFlush : Statement .xptFlush := by unfold Statement; decide

/-- XPT.CLOSE -/
theorem xptClose : Statement .xptClose := by unfold Statement; decide

/-- ADDR.SET -/
theorem addrSet (b : Byte) : Statement (.addrSet b) := by revert b; unfold Statement; decide +kernel

/-- SEQ.PROBE -/
theorem seqProbe (b : Byte) : Statement (.seqProbe b) := by revert b; unfold Statement; decide +kernel

/-- SEQ.DISCOVER -/
theorem seqDiscover : Statement .seqDiscover := by unfold Statement; decide

/-- SEQ.ESTABLISH -/
theorem seqEstablish (b : Byte) : Statement (.seqEstablish b) := by revert b; unfold Statement; decide +kernel

/-- SEQ.CYCLE -/
theorem seqCycle : Statement .seqCycle := by unfold Statement; decide

/-- SEQ.SHUTDOWN -/
theorem seqShutdown : Statement .seqShutdown := by unfold Statement; decide

end Sys2Proof.Laws.TableRow
end

