-- ==== Sys2Proof/Tests/Slice0.lean ====
section
/-! SUPPORT. The model's own tests. Expected values come from spec/: the rule or the vector of 95_test_vectors.md is named in
each docstring. S0 is the standard start state of 95_test_vectors.md. -/

namespace Sys2Proof.Tests

open Sys2Proof Sys2Proof.Machine Sys2Proof.Claims

/-! ## Helpers -/

/-- The ASCII bytes of a text. -/
def asc (s : String) : Bytes := s.toList.map fun c => BitVec.ofNat 8 c.toNat

/-- CR LF. -/
def crlf : Bytes := [0x0D, 0x0A]

/-- The standard start state. -/
def S0 : State := State.reset

/-- A state with this line in LBUF. -/
def withLine (l : Bytes) (s : State) : State := { s with lbuf := l }

/-- A state with a port open, in IDLE. -/
def opened (s : State) : State := { s with status := { s.status with opn := true } }

/-- A state with an address held. -/
def addressed (s : State) : State := { s with addr := 0x30, status := { s.status with addrv := true } }

/-- A state in a session (V-S18). -/
def inSession : State :=
  { addressed (opened S0) with
    sess := .sessionReady, status := { (addressed (opened S0)).status with auto := true } }

/-- The state after a discovery (V-S7). -/
def discovered : State := { addressed S0 with sess := .found }

/-- A state after a discovery that found nothing (V-S12). -/
def lost : State := { S0 with sess := .notFound, status := { S0.status with fatal := true } }

/-- The transport will answer opens and reads so. -/
def scripted (opens : List Bool) (lines : List Bytes) (s : State) : State :=
  { s with xpt := { s.xpt with opens := opens, lines := lines } }

/-- The host will present this word next. -/
def given (w : Word) (s : State) : State := { s with host := [.word w] }

/-- Other capacities. -/
def sized (lbufMax ntokMax nports : Nat) (s : State) : State :=
  { s with params := { s.params with lbufMax := lbufMax, ntokMax := ntokMax, nports := nports } }

/-- The outcome is a next state with this property. -/
def after (r : Result) (p : State → Bool) : Bool :=
  match r with
  | .next t => p t
  | .fault _ => false
  | .refused _ => false

/-- The STATUS word after an outcome. -/
def statusIs (w : Word) (r : Result) : Bool := after r fun t => t.status.word == w

/-- The frame of 95_test_vectors.md V-F1. -/
def frame1 : Bytes := asc "0r1,Sm=2.2MJRz" ++ crlf

/-- Its token. -/
def token1 : Token := { label := asc "Sm", value := asc "2.2M" }

/-- Its record. -/
def record1 : Record := { haddr := 0x30, hcode0 := 0x72, hcode1 := 0x31, mtype := .wind, tokens := [token1] }

/-! ## Well-formedness: an ill-formed term for each check (R9, R69, R93 to R95) -/

theorem test_word_legal : wordOk 0x1130 = true ∧ wordOk 0x6400 = true := by decide
theorem test_word_unassigned : wordOk 0x0000 = false ∧ wordOk 0xFFFF = false ∧ wordOk 0x1300 = false := by decide
theorem test_word_operand : wordOk 0x1001 = false ∧ wordOk 0x4A01 = false := by decide
theorem test_params_legal : Params.standard.wf = true := by decide
theorem test_params_small_line : Params.wf { Params.standard with lbufMax := 2 } = false := by decide
theorem test_params_long_line : Params.wf { Params.standard with lbufMax := 65536 } = false := by decide
theorem test_params_tokens : Params.wf { Params.standard with ntokMax := 65536 } = false := by decide
theorem test_params_ports : Params.wf { Params.standard with nports := 257 } = false := by decide
theorem test_params_model : Params.wf { Params.standard with modelId := [] } = false := by decide
theorem test_line_legal : lineLegal frame1 = true ∧ lineLegal [] = true := by decide
theorem test_line_two_ends : lineLegal [0x61, 0x0A, 0x62] = false := by decide

/-! ## Decoding: a word written out for every command (R90, R92) -/

theorem test_decode_crc : decode 0b0001000000000000 = .command .crcClr ∧
    decode 0b0001000100110000 = .command (.crcByte 0x30) ∧ decode 0b0001001000000000 = .command .crcPack := by decide
theorem test_decode_line : decode 0b0010000000000000 = .command .lineClr ∧
    decode 0b0010000101100001 = .command (.linePut 0x61) ∧ decode 0b0010001000000000 = .command .lineRead := by decide
theorem test_decode_frm : decode 0b0011000000000000 = .command .frmVerify ∧
    decode 0b0011000100000000 = .command .frmTokenize ∧ decode 0b0011001000000000 = .command .frmProcess := by decide
theorem test_decode_tx : decode 0b0100000000000000 = .command .txProbe ∧
    decode 0b0100000100000000 = .command .txSettings ∧ decode 0b0100001000000000 = .command .txSetmode := by decide
theorem test_decode_rsp : decode 0b0100100000000000 = .command .rspAddr ∧
    decode 0b0100100100000000 = .command .rspIdent ∧ decode 0b0100101000000000 = .command .rspAck := by decide
theorem test_decode_xpt : decode 0b0101000000000001 = .command (.xptOpen 1) ∧
    decode 0b0101000100000000 = .command .xptSettle ∧ decode 0b0101001000000000 = .command .xptFlush ∧
    decode 0b0101001100000000 = .command .xptClose ∧ decode 0b0101100000110000 = .command (.addrSet 0x30) := by decide
theorem test_decode_seq : decode 0b0110000000000101 = .command (.seqProbe 5) ∧
    decode 0b0110000100000000 = .command .seqDiscover ∧ decode 0b0110001000000011 = .command (.seqEstablish 3) ∧
    decode 0b0110001100000000 = .command .seqCycle ∧ decode 0b0110010000000000 = .command .seqShutdown := by decide
/-- V-E7 to V-E9, V-W17: the first opcodes above a group. -/
theorem test_decode_gaps : decode 0x1300 = .illegal (.unassignedOpcode 0x13) ∧
    decode 0x4300 = .illegal (.unassignedOpcode 0x43) ∧ decode 0x4B00 = .illegal (.unassignedOpcode 0x4B) ∧
    decode 0x6500 = .illegal (.unassignedOpcode 0x65) := by decide
/-- R65: the first byte is the opcode; a lone byte is no word. -/
theorem test_decode_bytes : decodeBytes [0x11, 0x30, 0x20] = some (.command (.crcByte 0x30), [0x20]) ∧
    decodeBytes [0x11] = none := by decide
theorem test_table_word : decodeTableWord 16 0x5830 = some (.addrSet 0x30) ∧ decodeTableWord 16 0x6101 = none := by
  decide

/-! ## The assembler (R98, R99) -/

theorem test_assemble_bare : assemble "CRC.CLR ; clear" = some [.crcClr] := by decide
theorem test_assemble_operand : assemble "CRC.BYTE '0'" = some [.crcByte 0x30] ∧
    assemble "XPT.OPEN 12" = some [.xptOpen 12] ∧ assemble "ADDR.SET 0xFf" = some [.addrSet 0xFF] := by decide
theorem test_assemble_escape : assemble "LINE.PUT '\\r'" = some [.linePut 0x0D] ∧
    assemble "LINE.STR \"a\\n\\xB0\"" = some [.linePut 0x61, .linePut 0x0A, .linePut 0xB0] := by decide
theorem test_assemble_compute : assemble "CRC.COMPUTE \"0r\"" = some [.crcClr, .crcByte 0x30, .crcByte 0x72, .crcPack] := by
  decide
/-- Log 10: a quoted `;` is a byte. -/
theorem test_assemble_quoted : assemble "LINE.PUT ';' ; put" = some [.linePut 0x3B] ∧
    assemble "CRC.STR \";\"; str" = some [.crcByte 0x3B] := by decide
theorem test_assemble_refused : assemble "CRC.BYTE 256" = none ∧ assemble "CRC.BYTE" = none ∧
    assemble "CRC.CLR 0" = none ∧ assemble "NOP" = none := by decide

/-! ## Reset and the command port -/

/-- R47: the register values after reset, read as the host reads them. -/
theorem test_reset_registers : rdReg 0 S0 = 0 ∧ rdReg 1 S0 = 0 ∧ rdReg 3 S0 = 0x40 ∧ rdReg 9 S0 = 0 ∧ S0.hist = [] := by
  decide
/-- V-E1: an illegal word from S0 gives STATUS = 0x000B. -/
theorem test_step_illegal : statusIs 0x000B (step (given 0x0000 S0)) = true := by decide
/-- A word as its two bytes runs (R65). -/
theorem test_step_bytes : after (step { S0 with host := [.wordBytes 0x11 0x30] }) (fun t => t.acc == 0x1400) = true := by
  decide
/-- The fetch of a table word: V-C3. -/
theorem test_step_fetch_word : after (step (S0.withFetchWord 16 0x1130)) (fun t => t.acc == 0x1400) = true := by
  decide
/-- V-R3: a reset leaves NOT_FOUND, with FATAL clear. -/
theorem test_step_reset : after (step { lost with host := [.reset Transport.silent] })
    (fun t => t.sess == .idle && !t.status.fatal) = true := by decide
/-- ILLEGAL comes before BAD_STATE (2.7 of 95_test_vectors.md). -/
theorem test_priority_illegal : after (step (given 0x4001 discovered)) (fun t => t.status.res == .illegal) = true := by
  decide

/-! ## CRC -/

/-- V-K1. -/
theorem test_crcClr : after (exec .crcClr { S0 with acc := 0xBB3D, chk0 := 0x4B, chk1 := 0x6C, chk2 := 0x7D })
    (fun t => t.acc == 0 && t.chk0 == 0x4B && t.chk2 == 0x7D && t.status.res == .ok) = true := by decide
/-- V-K3 and V-K5: the first byte 0x01, and 0xFF with CHK unchanged. -/
theorem test_crcByte : after (exec (.crcByte 0x01) S0) (fun t => t.acc == 0xC0C1) = true ∧
    after (exec (.crcByte 0xFF) S0) (fun t => t.acc == 0x4040 && t.chk1 == 0x40) = true := by decide
/-- P1: after `0`, the byte `r`. -/
theorem test_crcByte_chain : after (exec (.crcByte 0x72) { S0 with acc := 0x1400 }) (fun t => t.acc == 0x2594) = true := by
  decide
/-- V-K6 and the row 0x0FC0 of S7: the extreme checksum bytes. -/
theorem test_crcPack : after (exec .crcPack { S0 with acc := 0xFFFF })
      (fun t => t.chk0 == 0x4F && t.chk1 == 0x7F && t.chk2 == 0x7F && t.acc == 0xFFFF) = true ∧
    after (exec .crcPack { S0 with acc := 0x0FC0 })
      (fun t => t.chk0 == 0x40 && t.chk1 == 0x7F && t.chk2 == 0x40) = true := by decide
/-- V-C12, V-C33: checksums of whole payloads. -/
theorem test_crc16 : pack (crc16 (asc "0r1,Sm=2.2M")) = asc "JRz" ∧
    crc16 (asc "0r1,Dn=045D,Dm=090D,Dx=180D,Sn=1.1M,Sm=2.2M,Sx=3.3M") = 0x6AB1 := by decide +kernel

/-! ## Line buffer -/

/-- V-L5. -/
theorem test_lineClr : after (exec .lineClr { withLine frame1 S0 with status := { S0.status with vfy := true, ovf := true } })
    (fun t => t.lbuf == [] && !t.status.vfy && !t.status.ovf) = true := by decide
/-- V-L2: a full line drops the byte; STATUS = 0x1006. -/
theorem test_linePut_full : after (exec (.linePut 0x64) (sized 3 16 1 (withLine (asc "abc") S0)))
    (fun t => t.lbuf == asc "abc" && t.status.word == 0x1006) = true := by decide
/-- V-L14: 0x0A is stored, and TERM is cleared. -/
theorem test_linePut_lf : after (exec (.linePut 0x0A) { S0 with status := { S0.status with term := true } })
    (fun t => t.lbuf == [0x0A] && t.status.word == 0) = true := by decide
/-- V-L10: a long line is cut, and TERM describes it as received. -/
theorem test_lineRead_long : after (exec .lineRead (sized 3 16 1 (scripted [] [asc "abcd" ++ crlf] (opened S0))))
    (fun t => t.lbuf == asc "abc" && t.status.word == 0x1826 && t.hist == [.readLine (asc "abcd" ++ crlf)]) = true := by
  decide
/-- V-L7, V-L11: an empty read, and a refused one. -/
theorem test_lineRead_empty : statusIs 0x0023 (exec .lineRead (scripted [] [[]] (opened S0))) = true ∧
    after (exec .lineRead discovered) (fun t => t.status.res == .badState && t.hist == []) = true := by decide

/-! ## Frames -/

/-- V-F1: the frame verifies. -/
theorem test_frmVerify : after (exec .frmVerify (withLine frame1 S0))
    (fun t => t.status.vfy && t.acc == 0xA4BA && t.chk2 == 0x7A && t.status.res == .ok) = true := by decide +kernel
/-- V-F11: a space behind the checksum; the checksum taken is "Rz ". -/
theorem test_frmVerify_space : after (exec .frmVerify (withLine (asc "0r1,Sm=2.2MJRz " ++ crlf) S0))
    (fun t => t.status.res == .crcMismatch && t.acc == 0x44A4 && !t.status.vfy) = true := by decide +kernel
/-- V-F14: a header of four bytes. -/
theorem test_frmTokenize_header : after (exec .frmTokenize (withLine (asc "0r1x,Sm=2.2MMTM" ++ crlf) S0))
    (fun t => t.status.res == .unknownCode && t.haddr == 0x30 && t.hcode1 == 0x31 && t.hlen == 4 &&
      t.status.mtype == .none && t.tok == [token1]) = true := by decide
/-- V-F21: the second token has no room. -/
theorem test_frmTokenize_full :
    after (exec .frmTokenize (sized 256 1 1 (withLine (asc "0r1,Dm=090D,Sm=2.2MOKz" ++ crlf) S0)))
    (fun t => t.status.res == .overflow && t.tok == [] && t.hlen == 0 && !t.status.ovf) = true := by decide
/-- V-F1: the record is emitted; P2: STATUS = 0x0110. -/
theorem test_frmProcess : after (exec .frmProcess (withLine frame1 S0))
    (fun t => t.status.word == 0x0110 && t.hist == [.emit record1]) = true := by decide +kernel
/-- V-F30: an unknown code verifies, is tokenised and emits nothing. -/
theorem test_frmProcess_unknown : after (exec .frmProcess (withLine (asc "0r9,Ta=1.0CH`k" ++ crlf) S0))
    (fun t => t.status.word == 0x0014 && t.hist == [] && t.tok.length == 1) = true := by decide +kernel
/-- V-F17, V-F25: the cut is at the first `=`, and a tab inside the trimmed line stays. -/
theorem test_tokens : splitFirstEq (asc "a=b=c") = some { label := asc "a", value := asc "b=c" } ∧
    frameBody (asc " 0r1,Sm=2.2M\tKWe" ++ crlf) = asc "0r1,Sm=2.2M\t" := by decide
/-- The table of R174: byte-exact, so neither r4 nor R1 is recognised. -/
theorem test_classify : [asc "r1", asc "r2", asc "r3", asc "r5", asc "r4", asc "R1", asc "r1 ", []].map classify =
    [.wind, .ptu, .rain, .status, .none, .none, .none, .none] := by decide
/-- The whitespace set of R171, at both ends and not inside. -/
theorem test_trim : trimWs [0x09, 0x0B, 0x20, 0x41, 0x20, 0x42, 0x0C, 0x0D, 0x0A] = [0x41, 0x20, 0x42] ∧
    trimWs [0x20, 0x0B] = [] ∧ trimWs [0x08, 0x0E] = [0x08, 0x0E] := by decide
/-- The examples of R170 and R173. -/
theorem test_strip_split : stripTerm (asc "a\rb\r\n") = asc "a\rb" ∧ stripTerm (asc "\n\r\n") = [] ∧
    split 0x2C (asc "a,,b") = [asc "a", [], asc "b"] ∧ split 0x2C [] = [[]] := by decide
/-- V-F18, R184: of two tokens with one label the last is looked up. -/
theorem test_lookup : ({ record1 with tokens := [token1, { label := asc "Sm", value := asc "3.3M" }] } : Record).lookup
    (asc "Sm") = some (asc "3.3M") := by decide

/-! ## Wire -/

/-- V-W3. -/
theorem test_txProbe : after (exec .txProbe (opened S0)) (fun t => t.hist == [.write [0x3F, 0x0D, 0x0A]]) = true := by
  decide
/-- V-W4, V-W2: the frame, and NOT_OPEN before NO_ADDR. -/
theorem test_txSettings : after (exec .txSettings (addressed (opened S0)))
      (fun t => t.hist == [.write [0x30, 0x58, 0x55, 0x0D, 0x0A]]) = true ∧
    after (exec .txSettings S0) (fun t => t.status.res == .notOpen && t.hist == []) = true := by decide
/-- V-W4, V-W3. -/
theorem test_txSetmode : after (exec .txSetmode (addressed (opened S0)))
      (fun t => t.hist == [.write [0x30, 0x58, 0x55, 0x2C, 0x4D, 0x3D, 0x61, 0x0D, 0x0A]]) = true ∧
    after (exec .txSetmode (opened S0)) (fun t => t.status.res == .noAddr && t.hist == []) = true := by decide
/-- V-W6, V-W10. -/
theorem test_rspAddr : after (exec .rspAddr (withLine (asc "Z\r\n") S0)) (fun t => t.addr == 0x5A && t.status.addrv) = true ∧
    after (exec .rspAddr (withLine [0xC0, 0x0D, 0x0A] S0))
      (fun t => t.status.res == .noAddressReply && !t.status.addrv) = true := by decide
/-- V-W11, V-W12. -/
theorem test_rspIdent : statusIs 0x0000 (exec .rspIdent (withLine (asc "0XU,XYZ,M=P\r\n") S0)) = true ∧
    statusIs 0x0008 (exec .rspIdent (withLine (asc "0XU,xyz") S0)) = true := by decide
/-- V-W13, V-W15. -/
theorem test_rspAck : statusIs 0x0000 (exec .rspAck (withLine (asc "0XU,A=0,M=a,T=0\r\n") S0)) = true ∧
    statusIs 0x0008 (exec .rspAck (withLine (asc "M=a") S0)) = true := by decide

/-! ## Transport and session -/

/-- V-S1, V-S3. -/
theorem test_xptOpen : after (exec (.xptOpen 1) (sized 256 16 2 (scripted [true] [] S0)))
      (fun t => t.status.opn && t.port == 1 && t.hist == [.openPort 1 9600 true]) = true ∧
    after (exec (.xptOpen 2) (sized 256 16 2 S0)) (fun t => t.status.res == .openFailed && t.hist == []) = true := by
  decide
/-- V-S4. -/
theorem test_xptOpen_fails : after (exec (.xptOpen 0) (scripted [false] [] S0))
    (fun t => t.status.word == 0x000F && t.hist == [.openPort 0 9600 false]) = true := by decide
/-- V-S5 and the example of R233. -/
theorem test_xptSettle : after (exec .xptSettle (opened S0)) (fun t => t.hist == [.settle]) = true ∧
    statusIs 0x000C (exec .xptSettle S0) = true := by decide
/-- R70, R45 (a): what was received is gone. -/
theorem test_xptFlush : after (exec .xptFlush { opened S0 with xpt := { S0.xpt with rx := asc "old" } })
    (fun t => t.hist == [.flush] && t.xpt.rx == []) = true := by decide
/-- The example of R235, V-S5. -/
theorem test_xptClose : after (exec .xptClose (opened S0)) (fun t => !t.status.opn && t.hist == [.close]) = true ∧
    after (exec .xptClose S0) (fun t => t.status.res == .ok && t.hist == []) = true := by decide
/-- V-S6, V-W5. -/
theorem test_addrSet : statusIs 0x0040 (exec (.addrSet 0x30) S0) = true ∧
    after (exec (.addrSet 0x31) discovered) (fun t => t.status.res == .badState && t.addr == 0x30) = true := by
  decide
/-- V-S7. -/
theorem test_seqProbe : after (exec (.seqProbe 0) (scripted [true] [asc "0\r\n", asc "0XU,XYZ\r\n"] S0))
    (fun t => t.sess == .found && t.addr == 0x30 && t.status.word == 0x0840 && t.lbuf == asc "0XU,XYZ\r\n" &&
      t.hist == foundExchange 0 9600 0x30 (asc "0\r\n") (asc "0XU,XYZ\r\n")) = true := by decide
/-- V-S10: the model identifier is missing; the address set before is discarded. -/
theorem test_seqProbe_noMatch :
    after (exec (.seqProbe 0) (scripted [true] [asc "0\r\n", asc "0XU,ABC\r\n"] (addressed S0)))
    (fun t => t.status.res == .noMatch && t.sess == .idle && !t.status.addrv && !t.status.opn && t.hist.length == 9) = true := by
  decide
/-- The example of R239: port 0 does not open. -/
theorem test_seqDiscover :
    after (exec .seqDiscover (sized 256 16 2 (scripted [false, true] [asc "0\r\n", asc "0XU,XYZ\r\n"] S0)))
    (fun t => t.sess == .found && t.fport == 1 && t.hist.length == 10) = true := by decide
/-- P6, first command. -/
theorem test_seqDiscover_nothing : after (exec .seqDiscover (sized 256 16 2 (scripted [true, true] [[], crlf] S0)))
    (fun t => t.status.word == 0x2809 && t.sess == .notFound && t.port == 1 && t.hist.length == 12) = true := by
  decide
/-- V-S18. -/
theorem test_seqEstablish : after (exec (.seqEstablish 0) (scripted [true] [asc "0XU,M=a\r\n"] (addressed S0)))
    (fun t => t.sess == .sessionReady && t.status.word == 0x08E0 &&
      t.hist == modeExchange 0 0x30 (asc "0XU,M=a\r\n")) = true := by decide
/-- V-S15, V-S17. -/
theorem test_seqEstablish_fails : statusIs 0x204F (exec (.seqEstablish 3) (addressed S0)) = true ∧
    after (exec (.seqEstablish 0) (scripted [true] [[]] (addressed S0)))
      (fun t => t.status.word == 0x204A && t.hist.getLast? == some .close) = true := by decide
/-- V-S23. -/
theorem test_seqCycle : after (exec .seqCycle (scripted [] [frame1] inSession))
    (fun t => t.status.res == .ok && t.hist == [.readLine frame1, .emit record1]) = true := by decide +kernel
/-- V-S22, V-S21. -/
theorem test_seqCycle_empty : after (exec .seqCycle (scripted [] [[]] { inSession with hlen := 3, tok := [token1] }))
      (fun t => t.status.res == .empty && t.hlen == 0 && t.tok == [] && t.sess == .sessionReady) = true ∧
    statusIs 0x000E (exec .seqCycle S0) = true := by decide
/-- V-S25. -/
theorem test_seqShutdown : after (exec .seqShutdown inSession)
    (fun t => t.status.word == 0x0040 && t.sess == .idle && t.hist == [.close]) = true := by decide
/-- V-S27: a terminal state stays. -/
theorem test_seqShutdown_terminal : after (exec .seqShutdown lost)
    (fun t => t.status.word == 0x2000 && t.sess == .notFound && t.hist == []) = true := by decide

/-- Log 9: R185's second sentence fails in one corner. The payload 64 39 4D has the checksum 4B 6A 53; with its last byte
changed to LF the line still verifies, since R170 strips that byte as a terminator and 4D 4B 6A is the checksum of 64 39. -/
theorem test_changed_byte_corner : pack (crc16 [0x64, 0x39, 0x4D]) = [0x4B, 0x6A, 0x53] ∧
    after (exec .frmVerify (withLine [0x64, 0x39, 0x4D, 0x4B, 0x6A, 0x0A] S0)) (fun t => t.status.vfy) = true := by
  decide +kernel

/-! ## Witnesses: for every statement with hypotheses, a state and operands that meet them -/

/-- A frame of two tokens that verifies (S8 of 95_test_vectors.md). -/
def frame2 : Bytes := asc "0r1,Dm=090D,Sm=2.2MOKz"

theorem witness_DecodeOfEncodeGivesTheCommand :
    (Instr.crcByte 0xFF).wellFormed = true ∧ Instr.seqShutdown.wellFormed = true := by decide

theorem witness_EncodeOfDecodeGivesTheWord : decode 0x58FF = .command (.addrSet 0xFF) := by decide

theorem witness_DecoderIsTotalAndRejectsByName :
    (opUnassigned (fieldOp 0x0FFF) = true ∧ opUnassigned (fieldOp 0x6500) = true) ∧
    (opUnassigned (fieldOp 0x10FF) = false ∧ opTakesOperand (fieldOp 0x10FF) = false ∧ fieldImm 0x10FF ≠ 0) := by
  decide

theorem witness_StepRunsTheDecodedCommand : Instr.wellFormed .lineClr = true ∧ S0.status.busy = false ∧
    (given 0x2000 S0).host = [.word 0x2000] ∧ decode 0x2000 = .command .lineClr ∧
    ({ S0 with host := [.wordBytes 0x20 0x00] } : State).host = [.wordBytes 0x20 0x00] ∧
    decode (0x20#8 ++ 0x00#8) = .command .lineClr := by decide

theorem witness_IllegalWordChangesOnlyRes : (given 0x6401 S0).status.busy = false ∧
    ((given 0x6401 S0).host = [.word 0x6401] ∧ wordOk 0x6401 = false) ∧
    (({ S0 with host := [.wordBytes 0x64 0x01] } : State).host = [.wordBytes 0x64 0x01] ∧
      wordOk (0x64#8 ++ 0x01#8) = false) := by decide

theorem witness_IdleAndBusyStepsKeepTheState : S0.host = [] ∧
    ((accept (given 0x1000 S0)).host = [.word 0x1000] ∧ (accept (given 0x1000 S0)).status.busy = true) ∧
    (accept { S0 with host := [.wordBytes 0x10 0x00] }).host = [.wordBytes 0x10 0x00] := by decide

theorem witness_ResetGivesTheTableValues :
    ({ lost with host := [.reset Transport.silent] } : State).host = [.reset Transport.silent] := by decide

theorem witness_ResetLosesARunningCommand : ∃ t, exec (.linePut 0x61) S0 = .next t := ⟨_, rfl⟩

theorem witness_CrcComputeLeavesTheChecksum : S0.status.busy = false := by decide

theorem witness_LineClrAndPutGiveTheirResult :
    (sized 3 16 1 (withLine (asc "ab") S0)).lbuf.length < (sized 3 16 1 (withLine (asc "ab") S0)).params.lbufMax ∧
    (sized 3 16 1 (withLine (asc "abc") S0)).params.lbufMax ≤ (sized 3 16 1 (withLine (asc "abc") S0)).lbuf.length := by
  decide

theorem witness_LineReadStoresTheLine : (discovered.sess ≠ .idle ∧ discovered.sess ≠ .sessionReady) ∧
    (S0.sess = .idle ∧ S0.status.opn = false) ∧ ((opened S0).sess = .idle ∧ (opened S0).status.opn = true) ∧
    (inSession.sess = .sessionReady ∧ inSession.status.opn = true) := by decide

theorem witness_FlushForgetsReceivedBytes : (opened S0).sess = .idle ∧ (opened S0).status.opn = true := by decide

theorem witness_TrimmingRemovesWhitespaceAndAgreesWithStripping : (asc "0r1").head? = some 0x30 ∧ ¬ whitespace 0x30 ∧
    (asc "0r1").getLast? = some 0x31 ∧ ¬ whitespace 0x31 ∧ ∀ b ∈ crlf, b = 0x0D ∨ b = 0x0A := by
  unfold whitespace; decide

theorem witness_LookupTakesTheLastToken :
    ({ record1 with tokens := [token1, token1] } : Record).tokens = [token1] ++ token1 :: [] ∧
    ∀ t ∈ ([] : List Token), t.label ≠ token1.label := by decide

theorem witness_FrmVerifyJudgesTheChecksum :
    ({ S0 with status := { S0.status with ovf := true } } : State).status.ovf = true ∧
    (S0.status.ovf = false ∧ (stripTerm (withLine (asc "ab\r\n") S0).lbuf).length < 3) ∧
    ((withLine (asc "@@@\r\n") S0).lbuf = [] ++ [0x40, 0x40, 0x40] ++ crlf ∧ (∀ b ∈ crlf, b = 0x0D ∨ b = 0x0A) ∧
      (0x40 : Byte) ≠ 0x0D ∧ (0x40 : Byte) ≠ 0x0A) := by decide

theorem witness_FrmTokenizeSplitsTheBody :
    ({ S0 with status := { S0.status with ovf := true } } : State).status.ovf = true ∧
    (S0.status.ovf = false ∧ ∃ b ∈ frameBody ([0x80] ++ asc "@@@"), 0x80 ≤ b.toNat) ∧
    ((∀ b ∈ frameBody (withLine frame2 S0).lbuf, b.toNat < 0x80) ∧
      split 0x2C (frameBody (withLine frame2 S0).lbuf) = asc "0r1" :: [asc "Dm=090D", asc "Sm=2.2M"] ∧
      (sized 256 1 1 S0).params.ntokMax < ([asc "Dm=090D", asc "Sm=2.2M"].filterMap splitFirstEq).length ∧
      ([asc "Dm=090D", asc "Sm=2.2M"].filterMap splitFirstEq).length ≤ (sized 256 2 1 S0).params.ntokMax) := by
  decide +kernel

theorem witness_FrmProcessVerifiesThenTokenizesThenEmits :
    after (exec .frmVerify (clearFrame (withLine (asc "ab") S0))) (fun v => v.status.res != .ok) = true ∧
    after (exec .frmVerify (clearFrame (withLine (asc "@@@") S0)))
      (fun v => v.status.res == .ok && after (exec .frmTokenize v) (fun t => t.status.res != .ok)) = true ∧
    after (exec .frmVerify (clearFrame (withLine frame1 S0)))
      (fun v => v.status.res == .ok && after (exec .frmTokenize v) (fun t => t.status.res == .ok)) = true := by
  decide +kernel

theorem witness_LoadedFrameWithItsChecksumVerifies : (sized 16 16 1 S0).status.busy = false ∧ crlf = [0x0D, 0x0A] ∧
    (asc "0r1,Sm=2.2M").length + 3 + crlf.length ≤ (sized 16 16 1 S0).params.lbufMax := by decide

theorem witness_OneChangedByteNeverVerifies : crlf = [0x0D, 0x0A] ∧ 2 < ([] : Bytes).length + 3 ∧
    (([] : Bytes) ++ pack (crc16 []))[2]? ≠ some 0x41 ∧
    ((2 = ([] : Bytes).length + 2) → (0x41 : Byte) ≠ 0x0D ∧ (0x41 : Byte) ≠ 0x0A) ∧
    (withLine (asc "@@A\r\n") S0).lbuf = (([] : Bytes) ++ pack (crc16 [])).set 2 0x41 ++ crlf := by decide

theorem witness_TokenizeRecoversTheTokens : ¬ whitespace 0x30 ∧ (0x30 : Byte) ≠ 0x2C ∧ classify (asc "r1") ≠ .none ∧
    (∀ b ∈ asc "Dm" ++ asc "090D" ++ asc "Sm" ++ asc "2.2M", b ≠ 0x2C) ∧ (∀ b ∈ asc "Dm" ++ asc "Sm", b ≠ 0x3D) ∧
    (∀ b ∈ asc "0r1,Dm=090D,Sm=2.2M", b.toNat < 0x80) ∧ 2 ≤ (sized 256 2 1 S0).params.ntokMax ∧
    S0.status.ovf = false ∧
    (withLine frame2 S0).lbuf = asc "0r1,Dm=090D,Sm=2.2M" ++ pack (crc16 (asc "0r1,Dm=090D,Sm=2.2M")) := by
  unfold whitespace; decide +kernel

theorem witness_TxCommandsWriteTheirFrame : discovered.sess ≠ .idle ∧ (S0.sess = .idle ∧ S0.status.opn = false) ∧
    ((opened S0).sess = .idle ∧ (opened S0).status.opn = true ∧ (opened S0).status.addrv = false) ∧
    (addressed (opened S0)).status.addrv = true := by decide

theorem witness_RspAddrTakesAnAlphanumericByte : discovered.sess ≠ .idle ∧
    (S0.sess = .idle ∧ (withLine (asc "z") S0).lbuf = 0x7A :: [] ∧ alnum 0x7A ∧ alnum 0x30) ∧
    (S0.lbuf = [] ∧ (withLine (asc ":") S0).lbuf.head? = some 0x3A ∧ ¬ alnum 0x3A ∧ ¬ alnum 0x2F) := by
  unfold alnum; decide

theorem witness_RspTestsSearchTheLine :
    (∃ x y, (withLine (asc "0XYZ") S0).lbuf = x ++ S0.params.modelId ++ y) ∧
    (¬ ∃ x y, (withLine (asc "0XY") S0).lbuf = x ++ S0.params.modelId ++ y) ∧
    (∃ x y, (withLine (asc ",M=a") S0).lbuf = x ++ [0x2C, 0x4D, 0x3D, 0x61] ++ y) ∧
    (¬ ∃ x y, (withLine (asc "M=a") S0).lbuf = x ++ [0x2C, 0x4D, 0x3D, 0x61] ++ y) := by
  simp only [← contains_iff]; decide

theorem witness_XptOpenGivesItsResult : (opened S0).status.opn = true ∧
    (S0.sess = .idle ∧ S0.status.opn = false ∧ S0.params.nports ≤ (1 : Byte).toNat) ∧
    ((0 : Byte).toNat < S0.params.nports ∧ nextOpen (scripted [true] [] S0) = true ∧
      nextOpen (scripted [false] [] S0) = false) := by decide

theorem witness_ManualTransportCommandsGiveTheirResult : discovered.sess ≠ .idle ∧
    (S0.sess = .idle ∧ S0.status.opn = false) ∧ ((opened S0).sess = .idle ∧ (opened S0).status.opn = true) := by decide

theorem witness_SeqProbeSearchesItsPort : (discovered.sess ≠ .idle ∧ (opened S0).status.opn = true) ∧
    S0.sess = .idle ∧ S0.status.opn = false ∧ S0.params.nports ≤ (1 : Byte).toNat ∧
    (0 : Byte).toNat < S0.params.nports := by decide

theorem witness_SeqDiscoverSearchesEveryCandidate : (discovered.sess ≠ .idle ∧ (opened S0).status.opn = true) ∧
    S0.sess = .idle ∧ S0.status.opn = false := by decide

/-- Port 0 does not open, port 1 sends no address, port 2 gives one and is another device, port 3 answers. -/
theorem witness_SeqDiscoverFindsTheFirstAnsweringPort :
    let s := sized 9 16 4 (scripted [false, true, true, true]
      [[], asc "5\r\n", asc "5XU\r\n", asc "0\r\n", asc "0XU,XYZ\r\n"] S0)
    let earlier := [none, some [[]], some [0x35 :: crlf, asc "5XU\r\n"]]
    (s.sess = .idle ∧ s.status.opn = false ∧ 1 ≤ s.params.lbufMax ∧
      candidates s.params = [(0, 9600), (1, 9600), (2, 9600)] ++ (3, 9600) :: [] ∧ earlier.length = 3 ∧
      s.xpt.opens = earlier.map Option.isSome ++ true :: [] ∧
      s.xpt.lines = earlier.flatMap (fun answer => answer.getD []) ++ (0x30 :: crlf) :: asc "0XU,XYZ\r\n" :: [] ∧
      lineLegal (0x30 :: crlf) = true ∧ lineLegal (asc "0XU,XYZ\r\n") = true ∧ isAlnum 0x30 = true ∧
      contains s.params.modelId ((asc "0XU,XYZ\r\n").take s.params.lbufMax) = true) ∧
    ∀ answer ∈ earlier, scriptFails s.params answer := by
  refine ⟨by decide, ?_⟩
  intro answer h
  simp only [List.mem_cons, List.not_mem_nil, or_false] at h
  rcases h with rfl | rfl | rfl
  · exact .inl rfl
  · exact .inr (.inl ⟨[], rfl, by decide, nofun⟩)
  · exact .inr (.inr ⟨0x35, crlf, asc "5XU\r\n", rfl, by decide, by decide, by decide, by decide⟩)

theorem witness_SeqEstablishStartsOrFails :
    (lost.sess ≠ .idle ∧ lost.sess ≠ .found) ∧ (opened discovered).status.opn = true ∧
    (S0.sess = .idle ∧ S0.status.opn = false ∧ S0.status.addrv = false) ∧
    ((addressed S0).sess = .idle ∧ (addressed S0).status.opn = false ∧ (addressed S0).status.addrv = true) ∧
    (discovered.sess = .found ∧ discovered.status.opn = false ∧ discovered.status.addrv = true) := by decide

theorem witness_SeqCycleReadsThenProcesses : inSession.sess = .sessionReady ∧
    nextLine (scripted [] [[]] inSession) = [] ∧ nextLine (scripted [] [frame1] inSession) ≠ [] := by decide

theorem witness_CyclesDependOnlyOnTheirLine :
    let s := scripted [] [frame1] inSession
    let s' := scripted [] [frame1] { inSession with lbuf := frame2, acc := 0x1234, tok := [token1, token1], haddr := 0x31 }
    s.sess = .sessionReady ∧ s'.sess = .sessionReady ∧ s.params = s'.params ∧ nextLine s = nextLine s' := by decide

/-- V-F21 as a cycle: a full token store ends in OVERFLOW with VFY = 1 and the checksum registers written. -/
theorem test_seqCycle_full : after (exec .seqCycle (sized 256 1 1 (scripted [] [frame2] inSession)))
    (fun t => t.status.res == .overflow && t.status.vfy && [t.chk0, t.chk1, t.chk2] == asc "OKz") = true := by
  decide +kernel

theorem witness_SeqShutdownEndsTheSession : S0.status.opn = false ∧ inSession.status.opn = true := by decide

theorem witness_BadStateIsWhatTheTableSays : allowed .seqDiscover (opened S0).sess (opened S0).status.opn = false ∧
    (allowed (.xptOpen 0) S0.sess S0.status.opn = true ∧
      (S0.status.opn = true → opcode (.xptOpen 0) ≠ 0x50 ∧ opcode (.xptOpen 0) ≠ 0x62)) ∧
    (allowed .lineRead inSession.sess inSession.status.opn = true ∧
      (inSession.status.opn = true → opcode .lineRead ≠ 0x50 ∧ opcode .lineRead ≠ 0x62)) := by decide

theorem witness_CommandErrorsChangeOnlyRes :
    after (exec .txProbe S0) (fun t => t.status.res.commandError) = true := by decide

theorem witness_TransientCodesLeaveTheSession :
    after (exec .seqCycle (scripted [] [[]] inSession)) (fun t => t.status.res.transient) = true := by decide

theorem witness_SetupFailuresAreFatal :
    after (exec .seqDiscover (sized 256 16 0 S0)) (fun t => setupFailure .seqDiscover t.status.res) = true ∧
    after (exec (.seqEstablish 1) (addressed S0)) (fun t => setupFailure (.seqEstablish 1) t.status.res) = true := by
  decide

theorem witness_OnlyResetLeavesATerminalState : noReset (given 0x6400 lost) ∧
    (∃ t, step (given 0x6400 lost) = .next t) ∧ (given 0x6400 lost).status.fatal = true ∧
    (given 0x6400 lost).sess = .notFound :=
  ⟨nofun, ⟨_, rfl⟩, rfl, rfl⟩

theorem witness_RegistersHaveOnlyTheirWriters :
    after (exec (.crcByte 0x30) S0) (fun t => !decide (sameCrc S0 t)) = true ∧
    after (exec (.addrSet 0x30) S0) (fun t => t.addr != S0.addr) = true ∧
    after (exec .seqDiscover (sized 256 16 2 (scripted [false, true] [asc "0", asc "XYZ"] S0)))
      (fun t => t.fport != S0.fport && t.lbuf != S0.lbuf) = true ∧
    after (exec .frmTokenize (withLine frame1 S0)) (fun t => !decide (sameFrame S0 t)) = true ∧
    after (exec (.xptOpen 1) (sized 256 16 2 (scripted [true] [] S0)))
      (fun t => t.port != S0.port && t.status.opn != S0.status.opn) = true ∧
    after (exec (.seqEstablish 0) (scripted [true] [asc ",M=a"] (addressed S0)))
      (fun t => t.sess != S0.sess && t.status.auto && !decide (sameLine S0 t)) = true ∧
    after (exec .seqShutdown inSession) (fun t => inSession.status.auto && !t.status.auto) = true ∧
    after (exec .frmVerify (withLine (asc "@@@") S0)) (fun t => !S0.status.vfy && t.status.vfy) = true ∧
    after (exec .lineClr { S0 with status := { S0.status with vfy := true } }) (fun t => !t.status.vfy) = true ∧
    after (exec .seqDiscover (sized 256 16 0 S0)) (fun t => t.status.fatal != S0.status.fatal) = true := by decide

theorem witness_LocalCommandsStayInside : localCommand .frmProcess = true ∧ localCommand .rspAck = true := by decide

theorem witness_SessionInvariantIsKept : SessionInv (given 0x6400 inSession) ∧
    ∃ t, step (given 0x6400 inSession) = .next t :=
  ⟨by constructor <;> decide, _, rfl⟩

theorem witness_StoreCapacitiesAreKept : Memory.wf (given 0x2161 (sized 14 16 1 (withLine (asc "0r1,Sm=2.2MJRz") S0))) ∧
    ∃ t, step (given 0x2161 (sized 14 16 1 (withLine (asc "0r1,Sm=2.2MJRz") S0))) = .next t :=
  ⟨by decide, _, rfl⟩

theorem witness_VerifiedFlagDescribesTheLine :
    VerifiedInv (given 0x1000 { withLine frame1 S0 with status := { S0.status with vfy := true } }) ∧
    ∃ t, step (given 0x1000 { withLine frame1 S0 with status := { S0.status with vfy := true } }) = .next t :=
  ⟨by decide +kernel, _, rfl⟩

theorem witness_HeaderAndChecksumRegistersStayLegal :
    let s : State := given 0x1200 { S0 with
      haddr := 0x30, hcode0 := 0x72, hcode1 := 0x31, hlen := 3, status := { S0.status with mtype := .wind } }
    (∃ t, step s = .next t) ∧ HeaderInv s ∧ ChkInv s :=
  ⟨⟨_, rfl⟩, by decide, by decide⟩

theorem witness_OpenPortIsACandidate : (given 0x5300 (opened S0)).params.wf = true ∧ PortInv (given 0x5300 (opened S0)) ∧
    ∃ t, step (given 0x5300 (opened S0)) = .next t :=
  ⟨by decide, by decide, _, rfl⟩

theorem witness_HistoryObeysTheTransportRules :
    let s : State := given 0x5300 { opened S0 with hist := [.openPort 0 9600 true, .settle] }
    SessionInv s ∧ HistoryInv s ∧ ∃ t, step s = .next t :=
  ⟨by constructor <;> decide, by decide, _, rfl⟩

theorem witness_EventsStayLegal :
    let s : State := given 0x5300 { opened S0 with hist := [.openPort 0 9600 true, .readLine crlf] }
    EventsInv s ∧ ∃ t, step s = .next t := by
  refine ⟨?_, _, rfl⟩
  intro e he
  simp only [given, List.mem_cons, List.not_mem_nil, or_false] at he
  rcases he with rfl | rfl
  · exact ⟨by decide, .inr rfl⟩
  · exact (by decide : lineLegal crlf = true)

theorem witness_HostReadsFollowTheRegisterMap : 0x0F ≤ (0x0F : Byte).toNat ∧ 0x0F ≤ (0xFF : Byte).toNat ∧
    (withLine (asc "abc") S0).lbuf.length ≤ 65535 ∧ 2 < (withLine (asc "abc") S0).lbuf.length ∧
    (withLine (asc "abc") S0).lbuf.length ≤ 3 ∧ S0.tok.length ≤ 65535 ∧
    0 < ({ S0 with tok := [token1] } : State).tok.length ∧ S0.tok.length ≤ 0 := by decide

theorem witness_RunningCommandShowsOnlyBusyAndSess : accept S0 ∈ busyViews .crcClr S0 ∧
    setSess .scanning (accept S0) ∈ busyViews .seqDiscover S0 := by decide

theorem witness_InstancesDoNotTouchEachOther : (stepInstance 1 [S0, given 0x1130 S0]).isSome = true := by decide

end Sys2Proof.Tests
end

/-! PROOFS. The statements of 00_scope.md: every command ends with one of its codes (R13), the reply tests search the line
(R11), and the port held open is one of the candidates (R9). -/

namespace Sys2Proof.Proofs

open Sys2Proof.Machine

/-! ## The code a command ends with -/

/-- A guarded command ends with a code of its checks or with its body's code (60_exceptions.md R274). -/
theorem guarded_code_mem {refusals codes : List ResCode} {r : Option ResCode} {s : State} {b : ResCode × State}
    (hr : ∀ c, r = some c → c ∈ refusals) (hsub : refusals ⊆ codes) (hb : b.1 ∈ codes) :
    (guarded r s b).1 ∈ codes := by
  rcases guarded_cases r s b with ⟨c, hc, e⟩ | ⟨-, e⟩ <;> rw [e]
  · exact hsub (hr c hc)
  · exact hb

/-- The codes of LINE.READ's checks (42_line.md R154). -/
theorem readRefusal_code (s : State) (c : ResCode) (h : readRefusal s = some c) : c ∈ [.badState, .notOpen] := by
  unfold readRefusal at h; split_ifs at h <;> cases h <;> decide

/-- The codes of the checks of TX.PROBE, XPT.SETTLE and XPT.FLUSH (45_session.md R233, R234). -/
theorem portRefusal_code (s : State) (c : ResCode) (h : portRefusal s = some c) : c ∈ [.badState, .notOpen] := by
  unfold portRefusal at h; split_ifs at h <;> cases h <;> decide

/-- The codes of the checks of TX.SETTINGS and TX.SETMODE (44_wire.md R202). -/
theorem txRefusal_code (s : State) (c : ResCode) (h : txRefusal s = some c) : c ∈ [.badState, .notOpen, .noAddr] := by
  unfold txRefusal at h; split_ifs at h <;> cases h <;> decide

/-- The code of the check of RSP.ADDR, XPT.CLOSE and ADDR.SET (45_session.md R230). -/
theorem idleRefusal_code (s : State) (c : ResCode) (h : idleRefusal s = some c) : c ∈ [.badState] := by
  unfold idleRefusal at h; split_ifs at h; cases h; decide

/-- The code of the checks of XPT.OPEN, SEQ.PROBE and SEQ.DISCOVER (45_session.md R230). -/
theorem openRefusal_code (s : State) (c : ResCode) (h : openRefusal s = some c) : c ∈ [.badState] := by
  unfold openRefusal at h; split_ifs at h <;> cases h <;> decide

/-- The codes of SEQ.ESTABLISH's checks (45_session.md R246). -/
theorem establishRefusal_code (s : State) (c : ResCode) (h : establishRefusal s = some c) :
    c ∈ [.badState, .noAddr] := by
  unfold establishRefusal at h; split_ifs at h <;> cases h <;> decide

/-- The code of SEQ.CYCLE's check (45_session.md R250). -/
theorem cycleRefusal_code (s : State) (c : ResCode) (h : cycleRefusal s = some c) : c ∈ [.badState] := by
  unfold cycleRefusal at h; split_ifs at h; cases h; decide

/-- The verify step's codes are those of FRM.VERIFY (43_frame.md R176). -/
theorem verifyStep_code (s : State) : (verifyStep s).1 ∈ mayReport .frmVerify := by
  rcases verifyStep_cases s with ⟨-, e⟩ | ⟨-, -, e⟩ | ⟨c, -, -, e⟩ | ⟨c, -, -, e⟩ <;> simp [e, mayReport]

/-- The tokenize step's codes are those of FRM.TOKENIZE (43_frame.md R181). -/
theorem tokenizeStep_code (s : State) : (tokenizeStep s).1 ∈ mayReport .frmTokenize := by
  rcases tokenizeStep_cases s with ⟨-, e⟩ | ⟨-, -, e⟩ | ⟨h, fields, -, -, -, ⟨-, e⟩ | ⟨-, e⟩⟩ <;> rw [e]
  case inr.inr.inr => dsimp only; split <;> decide
  all_goals simp [mayReport]

/-- The pipeline's codes are those of FRM.PROCESS: the verify step's, and behind an OK the tokenize step's
(43_frame.md R183). -/
theorem processStep_code (s : State) : (processStep s).1 ∈ mayReport .frmProcess := by
  have hv : mayReport .frmVerify ⊆ mayReport .frmProcess := by decide
  have ht : mayReport .frmTokenize ⊆ mayReport .frmProcess := by decide
  rcases processStep_cases s with ⟨-, -, -, e⟩ | ⟨-, u, -, -, -, e⟩ | ⟨u, t, -, -, e⟩ <;> rw [e]
  · exact hv (verifyStep_code _)
  · exact ht (tokenizeStep_code u)
  · simp [mayReport]

/-- A read line is OK, EMPTY or OVERFLOW (42_line.md R154). -/
theorem lineReadCode_mem (l : Bytes) (t : State) : lineReadCode l t ∈ mayReport .lineRead := by
  unfold lineReadCode; split_ifs <;> decide

/-- Every outcome of a probe has its code (45_session.md R238). -/
theorem probeOutcome_code_mem (o : ProbeOutcome) (p : Byte) : o.code ∈ mayReport (.seqProbe p) := by
  cases o <;> simp [ProbeOutcome.code, mayReport]

/-- The codes of a discovery (45_session.md R239). -/
theorem discoverAll_code (s : State) : (discoverAll s).1 ∈ mayReport .seqDiscover := by
  unfold discoverAll; dsimp only; split <;> decide

/-- The codes of a session establishment (45_session.md R246, R247). -/
theorem establishSession_code (p : Byte) (s : State) :
    (establishSession p.toNat s).1 ∈ mayReport (.seqEstablish p) := by
  rcases establishSession_cases p.toNat s with ⟨-, e⟩ | ⟨-, e⟩ | ⟨-, r, x, v, -, -, e⟩ <;> rw [e]
  · simp [mayReport]
  · simp [mayReport]
  · cases v <;> simp [mayReport]

/-- The codes of a cycle behind its check: EMPTY, or those of the pipeline (45_session.md R250). -/
theorem cycleStep_code (s : State) : (cycleStep s).1 ∈ mayReport .seqCycle := by
  have hp : mayReport .frmProcess ⊆ mayReport .seqCycle := by decide
  unfold cycleStep
  split
  · simp [mayReport]
  · exact hp (processStep_code _)

/-- Every command's body answers one of the command's codes (60_exceptions.md R271). -/
theorem bodyOf_code_mem (i : Instr) (s : State) : (bodyOf i s).1 ∈ mayReport i := by
  cases i with
  | crcClr | crcByte | crcPack | lineClr | seqShutdown => simp [bodyOf, mayReport]
  | linePut => simp only [bodyOf]; split <;> simp [mayReport]
  | rspIdent | rspAck => simp only [bodyOf]; split <;> decide
  | frmVerify => exact verifyStep_code s
  | frmTokenize => exact tokenizeStep_code s
  | frmProcess => exact processStep_code s
  | lineRead => exact guarded_code_mem (readRefusal_code s) (by decide) (lineReadCode_mem _ _)
  | txProbe | xptSettle | xptFlush => exact guarded_code_mem (portRefusal_code s) (by decide) (by simp [mayReport])
  | txSettings | txSetmode => exact guarded_code_mem (txRefusal_code s) (by decide) (by simp [mayReport])
  | rspAddr =>
    refine guarded_code_mem (idleRefusal_code s) (by decide) ?_
    unfold takeAddress; split <;> simp [mayReport]
  | xptClose | addrSet => exact guarded_code_mem (idleRefusal_code s) (by simp [mayReport]) (by simp [mayReport])
  | xptOpen p =>
    refine guarded_code_mem (openRefusal_code s) (by simp [mayReport]) ?_
    simp only [openManual]; split_ifs <;> simp [mayReport]
  | seqProbe p =>
    refine guarded_code_mem (openRefusal_code s) (by simp [mayReport]) ?_
    split
    · exact probeOutcome_code_mem _ p
    · simp [mayReport]
  | seqDiscover => exact guarded_code_mem (openRefusal_code s) (by decide) (discoverAll_code s)
  | seqEstablish p =>
    exact guarded_code_mem (establishRefusal_code s) (by simp [mayReport]) (establishSession_code p s)
  | seqCycle => exact guarded_code_mem (cycleRefusal_code s) (by decide) (cycleStep_code s)

/-- Settles O10: every command is a body and its `finish`, and the body answers one of the command's codes. -/
theorem everyCommandEndsWithOneOfItsCodes : Obligations.EveryCommandEndsWithOneOfItsCodes :=
  fun i s => ⟨_, exec_eq i s, bodyOf_code_mem i s, rfl⟩

/-! ## The reply tests -/

/-- RSP.IDENT answers whether the line holds the model identifier (44_wire.md R208, R210). -/
theorem exec_rspIdent (s : State) :
    exec .rspIdent s = .next (finished (if contains s.params.modelId s.lbuf then .ok else .noMatch) s) :=
  exec_eq .rspIdent s

/-- RSP.ACK answers whether the line holds `,M=a` (44_wire.md R208, R211). -/
theorem exec_rspAck (s : State) :
    exec .rspAck s = .next (finished (if contains ackMarker s.lbuf then .ok else .noMatch) s) :=
  exec_eq .rspAck s

/-- Settles O31, from what `contains` means (00_scope.md R11). -/
theorem rspTestsSearchTheLine : Obligations.RspTestsSearchTheLine := by
  intro s
  refine ⟨fun h => ?_, fun h => ?_, fun h => ?_, fun h => ?_⟩
  · rw [exec_rspIdent, if_pos ((contains_iff _ _).2 h)]
  · rw [exec_rspIdent, if_neg (mt (contains_iff _ _).1 h)]
  · rw [exec_rspAck, if_pos ((contains_iff ackMarker _).2 h)]
  · rw [exec_rspAck, if_neg (mt (contains_iff ackMarker _).1 h)]

/-! ## The open port -/

/-- No step changes the parameters (10_state.md R46, 70_reset_and_hazards.md R303). -/
theorem step_params {s t : State} (h : step s = .next t) : t.params = s.params :=
  step_updates (P := fun u => u.params = s.params) (fun _ _ h => h) (fun _ h => h) (fun _ _ h => h) (fun _ _ h => h)
    (fun _ _ _ _ _ _ _ _ _ _ _ _ _ _ _ h => h) (fun _ _ h => h) (fun _ _ h => h) (fun _ h => h)
    (fun _ _ _ h => h) h rfl

/-- With no port open nothing is asked of PORT. -/
theorem portInv_of_closed {s : State} (h : s.status.opn = false) : PortInv s :=
  fun ho => absurd (h.symm.trans ho) Bool.false_ne_true

/-- With legal parameters PORT holds every candidate's index whole (00_scope.md R9, 10_state.md R39). -/
theorem portByte_lt_nports {q : Params} {p : Nat} (hw : q.wf = true) (hp : p < q.nports) :
    (portByte p).toNat < q.nports := by
  have h256 : q.nports ≤ 256 := by
    simp only [Params.wf, Bool.and_eq_true, decide_eq_true_eq] at hw
    obtain ⟨⟨-, h⟩, -⟩ := hw
    exact h
  rw [portByte, BitVec.toNat_ofNat, Nat.mod_eq_of_lt (by omega)]
  exact hp

/-- Opening a candidate keeps the invariant, whatever the transport answers (20_memory.md R67). -/
theorem portInv_xptOpen {s : State} {p : Nat} (b : Nat) (hw : s.params.wf = true) (hp : p < s.params.nports)
    (h : PortInv s) : PortInv (xptOpen p b s) := by
  cases ho : nextOpen s with
  | true => rw [xptOpen_ok p b ho]; exact fun _ => portByte_lt_nports hw hp
  | false => rw [xptOpen_fail p b ho]; exact h

/-- Closing the port leaves none open (45_session.md R235, R252). -/
theorem closeIfOpen_opn (s : State) : (closeIfOpen s).status.opn = false := by
  unfold closeIfOpen
  cases h : s.status.opn with
  | true => rfl
  | false => exact h

/-- The pipeline does not touch the port (43_frame.md R183, 20_memory.md R75). -/
theorem portInv_processStep {s : State} (h : PortInv s) : PortInv (processStep s).2 := by
  obtain ⟨_, _, _, _, _, _, _, _, _, _, _, _, e, -⟩ := processStep_frame s
  rw [e]; exact h

/-- Reading a line does not touch the port (42_line.md R154). -/
theorem portInv_readIntoLine {s : State} (h : PortInv s) : PortInv (readIntoLine s) := by
  rw [readIntoLine_eq]; exact h

/-- A search leaves the transport closed when it was closed before: each candidate is closed again
(45_session.md R237). -/
theorem probeAll_opn (cs : List (Nat × Nat)) (o : ProbeOutcome) (s : State) (h : s.status.opn = false) :
    (probeAll cs o s).2.status.opn = false := by
  refine probeAll_induct (R := fun s t => s.status.opn = false → t.status.opn = false) (fun _ h => h)
    (fun _ _ _ h1 h2 h => h2 (h1 h)) cs (fun c _ u hu => ?_) (fun _ _ _ h => h) o s h
  rcases probeCandidate_cases c.1 c.2 u with e | ⟨r1, x, -, -, e⟩ | ⟨r1, r2, x, a, v, -, -, -, -, -, e⟩ <;> rw [e]
  exact hu

/-- The search of SEQ.PROBE leaves the transport closed (45_session.md R238). -/
theorem probePort_opn (p : Nat) {s : State} (h : s.status.opn = false) : (probePort p s).2.status.opn = false := by
  have hs := probeAll_opn (portCandidates s p) .openFailed (startScan s) h
  unfold probePort; dsimp only; split <;> exact hs

/-- The search of SEQ.DISCOVER leaves the transport closed (45_session.md R239). -/
theorem discoverAll_opn {s : State} (h : s.status.opn = false) : (discoverAll s).2.status.opn = false := by
  have hs := probeAll_opn (allCandidates s) .openFailed (startScan s) h
  unfold discoverAll; dsimp only; split <;> exact hs

/-- A session is established on a candidate only (45_session.md R246). -/
theorem portInv_establishSession (p : Nat) {s : State} (hw : s.params.wf = true) (h : PortInv s) :
    PortInv (establishSession p s).2 := by
  rcases establishSession_cases p s with ⟨-, e⟩ | ⟨-, e⟩ | ⟨hp, r, x, v, -, -, e⟩ <;> rw [e]
  · exact h
  · exact h
  · exact fun _ => portByte_lt_nports hw hp

/-- A guarded command keeps the invariant when its body does: a refused one changes nothing (60_exceptions.md R274). -/
theorem portInv_guarded {r : Option ResCode} {s : State} {b : ResCode × State} (h : PortInv s)
    (hb : r = none → PortInv b.2) : PortInv (guarded r s b).2 := by
  rcases guarded_cases r s b with ⟨c, -, e⟩ | ⟨hr, e⟩ <;> rw [e]
  · exact h
  · exact hb hr

/-- Every command's body keeps the invariant: PORT and OPEN are written by the opens, of candidates only, and by the
closes (10_state.md R26, R39). -/
theorem portInv_bodyOf (i : Instr) {s : State} (hw : s.params.wf = true) (h : PortInv s) :
    PortInv (bodyOf i s).2 := by
  cases i with
  | crcClr | crcByte | crcPack | lineClr | rspIdent | rspAck => exact h
  | linePut b => simp only [bodyOf, linePutState_eq]; exact h
  | frmVerify => obtain ⟨_, _, _, _, _, e⟩ := verifyStep_frame s; simp only [bodyOf, e]; exact h
  | frmTokenize => obtain ⟨_, _, _, _, _, _, e⟩ := tokenizeStep_frame s; simp only [bodyOf, e]; exact h
  | frmProcess => exact portInv_processStep h
  | lineRead => exact portInv_guarded h fun _ => portInv_readIntoLine h
  | txProbe | txSettings | txSetmode | xptSettle | xptFlush | addrSet => exact portInv_guarded h fun _ => h
  | rspAddr =>
    refine portInv_guarded h fun _ => ?_
    unfold takeAddress; split <;> exact h
  | xptOpen p =>
    refine portInv_guarded h fun _ => ?_
    split
    · next hp => exact portInv_xptOpen _ hw (of_decide_eq_true hp) h
    · exact h
  | xptClose => exact portInv_guarded h fun _ => portInv_of_closed (closeIfOpen_opn s)
  | seqProbe p =>
    refine portInv_guarded h fun hr => ?_
    split
    · exact portInv_of_closed (probePort_opn _ (openRefusal_eq_none.1 hr).2)
    · exact h
  | seqDiscover =>
    exact portInv_guarded h fun hr => portInv_of_closed (discoverAll_opn (openRefusal_eq_none.1 hr).2)
  | seqEstablish p => exact portInv_guarded h fun _ => portInv_establishSession _ hw h
  | seqCycle =>
    refine portInv_guarded h fun _ => ?_
    unfold cycleStep
    split
    · exact portInv_readIntoLine h
    · exact portInv_processStep (portInv_readIntoLine h)
  | seqShutdown => exact portInv_of_closed (closeIfOpen_opn s)

/-- Settles O53, by the four ways a step goes. -/
theorem openPortIsACandidate : Obligations.OpenPortIsACandidate := by
  intro s t hw h hst
  refine ⟨step_params hst, ?_⟩
  rcases step_next hst with rfl | ⟨-, rfl⟩ | ⟨after, rest, -, rfl⟩ | ⟨i, -, e⟩
  · exact h
  · exact h
  · exact portInv_of_closed rfl
  · rw [exec_next e]
    exact portInv_bodyOf i (s := takeInput s) hw h

end Sys2Proof.Proofs

/-! PROOFS. The statements of 10_state.md: the stores and VFY keep their meaning (R25, R31, R41, R43), what a command adds to
H (R26, R46, 20_memory.md R64, R66), who writes which register (R23, R35 to R43), and what reset leaves and the host reads
(R20 to R22, R34, R47). -/

namespace Sys2Proof.Proofs

open Sys2Proof.Machine

/-! ## The line and the token store -/

/-- A refused command keeps a property of states; any other keeps it when its body does (60_exceptions.md R274). -/
theorem guarded_keeps {P : State → Prop} {r : Option ResCode} {s : State} {b : ResCode × State} (h : P s)
    (hb : r = none → P b.2) : P (guarded r s b).2 := by
  rcases guarded_cases r s b with ⟨c, -, e⟩ | ⟨hr, e⟩ <;> rw [e]
  · exact h
  · exact hb hr

/-- LBUF, OVF, VFY, the token store and the parameters are as before: each clause proves itself of an update of other
fields. -/
structure SameStores (s t : State) : Prop where
  lbuf : t.lbuf = s.lbuf := by rfl
  ovf : t.status.ovf = s.status.ovf := by rfl
  vfy : t.status.vfy = s.status.vfy := by rfl
  tok : t.tok = s.tok := by rfl
  params : t.params = s.params := by rfl

/-- The property speaks of the line, its flags OVF and VFY and the token store, and each operation that writes one of them
keeps it (10_state.md R25, R31, R41, R43). -/
structure KeptByStoreOps (P : State → Prop) : Prop where
  same : ∀ {s t}, SameStores s t → P s → P t
  load : ∀ {s} l, P s → P (lineLoad l s)
  put : ∀ {s} b, P s → P (linePutState b s)
  verify : ∀ {s}, P s → P (verifyStep s).2
  clear : ∀ {s}, P s → P (clearFrame s)
  tokenize : ∀ {s}, P s → P (tokenizeStep s).2
  reset : ∀ after s, P (resetBlock after s)

namespace KeptByStoreOps

variable {P : State → Prop}

/-- A line loaded, with the state written out (42_line.md R151). -/
theorem loaded (k : KeptByStoreOps P) {s : State} (l : Bytes) (h : P s) : P { s with
    lbuf := l.take s.params.lbufMax, status := lineStatus s.status s.params.lbufMax l } :=
  lineLoad_eq l s ▸ k.load l h

/-- The pipeline is clearing, verifying, tokenizing and an event (43_frame.md R183). -/
theorem process (k : KeptByStoreOps P) {s : State} (h : P s) : P (processStep s).2 := by
  have hv := k.verify (k.clear h)
  rcases processStep_cases s with ⟨c, -, -, e⟩ | ⟨c, u, hu, -, -, e⟩ | ⟨u, t, hu, ht, e⟩ <;> rw [e]
  · exact hv
  · rw [hu] at hv
    exact k.tokenize hv
  · rw [hu] at hv
    have htok := k.tokenize hv
    rw [ht] at htok
    exact k.same {} htok

/-- A read from the transport is a line loaded (42_line.md R154). -/
theorem readLine (k : KeptByStoreOps P) {s : State} (h : P s) : P (readIntoLine s) :=
  k.load _ (k.same {} h)

/-- Of the stores the probe of a candidate writes the line alone, and loads it (45_session.md R237). -/
theorem probe (k : KeptByStoreOps P) (p b : Nat) {s : State} (h : P s) : P (probeCandidate p b s).2 := by
  rcases probeCandidate_cases p b s with e | ⟨r, x, -, -, e⟩ | ⟨r1, r2, x, a, v, -, -, -, -, -, e⟩ <;> rw [e]
  · exact k.same {} h
  · exact k.same {} (k.loaded r h)
  · exact k.same {} (k.loaded r2 h)

/-- So does a search over candidates (45_session.md R238, R239). -/
theorem search (k : KeptByStoreOps P) (cs : List (Nat × Nat)) (o : ProbeOutcome) {s : State} (h : P s) :
    P (probeAll cs o s).2 :=
  probeAll_induct (R := fun s t => P s → P t) (fun _ h => h) (fun _ _ _ h1 h2 h => h2 (h1 h)) cs
    (fun c _ _ hu => k.probe c.1 c.2 hu) (fun _ _ _ hu => k.same {} hu) o s h

/-- So does the establishment of a session (45_session.md R246). -/
theorem establish (k : KeptByStoreOps P) (p : Nat) {s : State} (h : P s) : P (establishSession p s).2 := by
  rcases establishSession_cases p s with ⟨-, e⟩ | ⟨-, e⟩ | ⟨-, r, x, v, -, -, e⟩ <;> rw [e]
  · exact k.same {} h
  · exact k.same {} h
  · exact k.same {} (k.loaded r h)

/-- Every command's body keeps such a property. -/
theorem bodyOf (k : KeptByStoreOps P) (i : Instr) {s : State} (h : P s) : P (bodyOf i s).2 := by
  cases i with
  | crcClr | crcByte | crcPack => exact k.same {} h
  | rspIdent | rspAck => exact h
  | lineClr => exact k.load [] h
  | linePut b => exact k.put b h
  | frmVerify => exact k.verify h
  | frmTokenize => exact k.tokenize h
  | frmProcess => exact k.process h
  | lineRead => exact guarded_keeps h fun _ => k.readLine h
  | txProbe | txSettings | txSetmode | xptSettle | xptFlush | addrSet =>
    exact guarded_keeps h fun _ => k.same {} h
  | rspAddr =>
    refine guarded_keeps h fun _ => ?_
    unfold takeAddress
    split
    · exact k.same {} h
    · exact h
  | xptOpen p =>
    refine guarded_keeps h fun _ => ?_
    split
    · exact k.same {} h
    · exact h
  | xptClose =>
    refine guarded_keeps h fun _ => ?_
    unfold closeIfOpen
    split
    · exact k.same {} h
    · exact h
  | seqProbe p =>
    refine guarded_keeps h fun _ => ?_
    split
    · have hs := k.search (portCandidates s p.toNat) .openFailed (s := startScan s) (k.same {} h)
      unfold probePort
      dsimp only
      split
      · exact hs
      · exact k.same {} hs
    · exact h
  | seqDiscover =>
    refine guarded_keeps h fun _ => ?_
    have hs := k.search (allCandidates s) .openFailed (s := startScan s) (k.same {} h)
    unfold discoverAll
    dsimp only
    split
    · exact hs
    · exact k.same {} hs
  | seqEstablish p => exact guarded_keeps h fun _ => k.establish _ h
  | seqCycle =>
    refine guarded_keeps h fun _ => ?_
    unfold cycleStep
    split
    · exact k.clear (k.readLine h)
    · exact k.process (k.readLine h)
  | seqShutdown =>
    refine k.same ?_ h
    simp only [Machine.bodyOf, closeIfOpen]
    split <;> exact {}

/-- Every step keeps such a property. -/
theorem step (k : KeptByStoreOps P) {s t : State} (hst : step s = .next t) (h : P s) : P t :=
  step_keeps (fun _ _ h => k.same {} h) (fun _ h => k.same {} h) (fun _ _ h => k.same {} h)
    (fun after s _ => k.reset after s) (fun i _ h => k.bodyOf i h) hst h

end KeptByStoreOps

/-- The capacities are kept by every operation on the stores (10_state.md R41, R43). -/
theorem memory_wf_keptByStoreOps : KeptByStoreOps Memory.wf where
  same := by
    intro s t e h
    rw [Memory.wf, e.lbuf, e.tok, e.params]
    exact h
  load := lineLoad_wf
  put := linePutState_wf
  verify := by
    intro s h
    obtain ⟨_, _, _, _, _, e⟩ := verifyStep_frame s
    rw [e]
    exact h
  clear := clearFrame_wf
  tokenize := tokenizeStep_wf
  reset := resetBlock_wf

/-- Settles O50: the operations on the stores keep their capacities. -/
theorem storeCapacitiesAreKept : Obligations.StoreCapacitiesAreKept :=
  fun _ _ h hst => memory_wf_keptByStoreOps.step hst h

/-- With VFY clear nothing is asked of the line. -/
theorem verifiedInv_of_vfy_eq_false {s : State} (h : s.status.vfy = false) : VerifiedInv s :=
  fun hv => absurd (h.symm.trans hv) Bool.false_ne_true

/-- After the verify step VFY says that the line was not truncated and its checksum is right (43_frame.md R176). -/
theorem verifiedInv_verifyStep (s : State) : VerifiedInv (verifyStep s).2 := by
  rcases verifyStep_cases s with ⟨-, e⟩ | ⟨-, -, e⟩ | ⟨c, ho, hv, e⟩ | ⟨c, -, -, e⟩ <;> rw [e]
  case inr.inr.inl => exact fun _ => ⟨ho, congrArg Verdict.isValid hv⟩
  all_goals exact verifiedInv_of_vfy_eq_false rfl

/-- Each writer of the line clears VFY, and only the verify step sets it (10_state.md R25, R31). -/
theorem verifiedInv_keptByStoreOps : KeptByStoreOps VerifiedInv where
  same := by
    intro s t e h
    rw [VerifiedInv, e.lbuf, e.ovf, e.vfy]
    exact h
  load l _ := verifiedInv_of_vfy_eq_false (by rw [lineLoad_eq])
  put b _ := verifiedInv_of_vfy_eq_false (by rw [linePutState_eq])
  verify _ := verifiedInv_verifyStep _
  clear h := h
  tokenize := by
    intro s h
    obtain ⟨_, _, _, _, _, _, e⟩ := tokenizeStep_frame s
    rw [e]
    exact h
  reset _ _ := verifiedInv_of_vfy_eq_false rfl

/-- Settles O51: VFY is set by the verify step alone and cleared by every other writer of the line. -/
theorem verifiedFlagDescribesTheLine : Obligations.VerifiedFlagDescribesTheLine :=
  fun _ _ h hst => verifiedInv_keptByStoreOps.step hst h

/-! ## What a command adds to H -/

/-- From s to t the events es are performed: they are H's new end and at most n, PORT follows them, the inputs and the
parameters are untouched, and, where a ready session has its port open, they use the transport as its rules allow and end
with OPEN as t has it (10_state.md R26, R39, R46, 20_memory.md R64, R66, R72, 70_reset_and_hazards.md R313). -/
structure Performs (n : Nat) (s t : State) (es : List Event) : Prop where
  hist : t.hist = s.hist ++ es
  bound : es.length ≤ n
  port : portFollows s t es
  outside : sameOutside s t
  rules : (s.sess = .sessionReady → s.status.opn = true) → track es s.status.opn = some t.status.opn

/-- Nothing happened to H. -/
theorem Performs.nothing {n : Nat} {s t : State} (hh : t.hist = s.hist) (hp : t.port = s.port)
    (ho : t.status.opn = s.status.opn) (hx : sameOutside s t) : Performs n s t [] where
  hist := by rw [hh, List.append_nil]
  bound := Nat.zero_le n
  port := hp
  outside := hx
  rules _ := by rw [ho]; rfl

/-- Where nothing happened, the empty list is what was performed. -/
theorem performs_refl (n : Nat) (s : State) : ∃ es, Performs n s s es :=
  ⟨[], .nothing rfl rfl rfl ⟨rfl, rfl⟩⟩

/-- A refused command performs nothing (60_exceptions.md R274). -/
theorem guarded_performs {n : Nat} {r : Option ResCode} {s : State} {b : ResCode × State}
    (hb : r = none → ∃ es, Performs n s b.2 es) : ∃ es, Performs n s (guarded r s b).2 es :=
  guarded_keeps (P := fun t => ∃ es, Performs n s t es) (performs_refl n s) hb

/-- A history tracked in two parts (20_memory.md R66). -/
theorem track_append (es fs : List Event) (o : Bool) : track (es ++ fs) o = (track es o).bind (track fs) := by
  induction es generalizing o with
  | nil => rfl
  | cons e es ih =>
    rw [List.cons_append, track, track]
    cases trackEvent o e with
    | none => rfl
    | some o' => exact ih o'

/-- A failing candidate has at most nine events, and they open and close the port again (45_session.md R237). -/
theorem candidateFails_events {q : Params} {p b : Nat} {es : List Event} {c : ResCode}
    (h : candidateFails q p b es c) : es.length ≤ 9 ∧ track es false = some false := by
  rcases h with ⟨-, rfl⟩ | ⟨-, r, rfl, -⟩ | ⟨-, a, r1, r2, rfl, -, -, -⟩
  · exact ⟨by simp, rfl⟩
  · exact ⟨by simp [silentExchange], rfl⟩
  · exact ⟨by simp [foundExchange], rfl⟩

/-- So have failing candidates one after the other (45_session.md R238, R239, 70_reset_and_hazards.md R313). -/
theorem failingExchanges_events {q : Params} {cs : List (Nat × Nat)} {es : List Event}
    (h : failingExchanges q cs es) : es.length ≤ 9 * cs.length ∧ track es false = some false := by
  induction cs generalizing es with
  | nil => rw [show es = [] from h]; exact ⟨Nat.le_refl 0, rfl⟩
  | cons c cs ih =>
    obtain ⟨first, rest, code, rfl, hf, hr⟩ := h
    obtain ⟨l1, t1⟩ := candidateFails_events hf
    obtain ⟨l2, t2⟩ := ih hr
    refine ⟨by rw [List.length_append, List.length_cons]; omega, ?_⟩
    rw [track_append, t1]
    exact t2

/-- What a search over candidates performs, with the port closed and no address held before it (45_session.md R237 to
R239). -/
theorem probeAll_performs (cs : List (Nat × Nat)) {s : State} (hc : s.status.opn = false)
    (ha : s.status.addrv = false) : ∃ es, Performs (9 * cs.length) s (probeAll cs .openFailed s).2 es := by
  rcases probeAll_ends cs .openFailed s nofun hc ha with
    ⟨p, b, a, r1, r2, x, tried, before, rest, t, -, -, -, -, -, hcs, hf, ⟨hp, -, -⟩, e, et⟩ |
    ⟨o, a, pt, l, es, x, tm, ov, vf, t, -, hes, ⟨hp, -, -⟩, e, et⟩
  · obtain ⟨hl, ht⟩ := failingExchanges_events hf
    rw [e]
    refine ⟨_, by rw [et], ?_, hp, by rw [et]; exact ⟨rfl, rfl⟩, fun _ => ?_⟩
    · simp only [hcs, List.length_append, List.length_cons, List.length_nil]; omega
    · rw [hc, track_append, ht, et]; rfl
  · have hev : es.length ≤ 9 * cs.length ∧ track es false = some false := by
      rcases hes with ⟨rfl, rfl, -⟩ | ⟨tried, c, before, last, rfl, rfl, hf, hl⟩
      · exact ⟨Nat.le_refl 0, rfl⟩
      · exact failingExchanges_events (failingExchanges_concat hf hl)
    rw [e]
    refine ⟨es, by rw [et], hev.1, hp, by rw [et]; exact ⟨rfl, rfl⟩, fun _ => ?_⟩
    rw [hc, hev.2, et]

/-- SESS, FPORT, ADDRV and FATAL, which a discovery writes around its search, do not matter to what is performed
(45_session.md R238, R239). -/
theorem Performs.of_startScan {n : Nat} {s u t : State} {es : List Event} (h : Performs n (startScan s) u es)
    (hh : t.hist = u.hist := by rfl) (hp : t.port = u.port := by rfl) (ho : t.status.opn = u.status.opn := by rfl)
    (hx : sameOutside u t := by exact ⟨rfl, rfl⟩) : Performs n s t es where
  hist := hh.trans h.hist
  bound := h.bound
  port := hp.trans h.port
  outside := ⟨hx.1.trans h.outside.1, hx.2.trans h.outside.2⟩
  rules _ := by rw [ho]; exact h.rules nofun

/-- What SEQ.PROBE performs behind its checks (45_session.md R238). -/
theorem probePort_performs (p : Nat) {s : State} (hc : s.status.opn = false) :
    ∃ es, Performs (9 * s.params.bauds.length) s (probePort p s).2 es := by
  obtain ⟨es, h⟩ := probeAll_performs (portCandidates s p) (s := startScan s) hc rfl
  rw [portCandidates, List.length_map] at h
  refine ⟨es, ?_⟩
  unfold probePort
  dsimp only
  split
  · exact h.of_startScan
  · exact h.of_startScan

/-- The candidates of SEQ.DISCOVER are the pairs of a port and a baud rate (45_session.md R239). -/
theorem allCandidates_length (s : State) :
    (allCandidates s).length = s.params.nports * s.params.bauds.length := by
  simp [allCandidates, portCandidates, List.length_flatMap]

/-- What SEQ.DISCOVER performs behind its checks (45_session.md R239). -/
theorem discoverAll_performs {s : State} (hc : s.status.opn = false) :
    ∃ es, Performs (9 * s.params.nports * s.params.bauds.length) s (discoverAll s).2 es := by
  obtain ⟨es, h⟩ := probeAll_performs (allCandidates s) (s := startScan s) hc rfl
  rw [allCandidates_length, ← Nat.mul_assoc] at h
  refine ⟨es, ?_⟩
  unfold discoverAll
  dsimp only
  split
  · exact h.of_startScan
  · exact h.of_startScan

/-- What SEQ.ESTABLISH performs behind its checks (45_session.md R246, R247). -/
theorem establishSession_performs (p : Nat) {s : State} (hc : s.status.opn = false) :
    ∃ es, Performs 6 s (establishSession p s).2 es := by
  rcases establishSession_cases p s with ⟨-, e⟩ | ⟨-, e⟩ | ⟨-, r, x, v, -, -, e⟩ <;> rw [e]
  · exact ⟨[], .nothing rfl rfl rfl ⟨rfl, rfl⟩⟩
  · exact ⟨_, rfl, by simp, rfl, ⟨rfl, rfl⟩, fun _ => by rw [hc]; rfl⟩
  · refine ⟨_, rfl, ?_, ?_, ⟨rfl, rfl⟩, fun _ => ?_⟩
    · cases v <;> simp
    · cases v <;> rfl
    · rw [hc]; cases v <;> rfl

/-- What an open performs (20_memory.md R67). -/
theorem xptOpen_performs (p b : Nat) {s : State} (hc : s.status.opn = false) :
    ∃ es, Performs 1 s (xptOpen p b s) es := by
  cases ho : nextOpen s with
  | true =>
    rw [xptOpen_ok p b ho]
    exact ⟨_, rfl, Nat.le_refl 1, rfl, ⟨rfl, rfl⟩, fun _ => by rw [hc]; rfl⟩
  | false =>
    rw [xptOpen_fail p b ho]
    exact ⟨_, rfl, Nat.le_refl 1, rfl, ⟨rfl, rfl⟩, fun _ => by rw [hc]; rfl⟩

/-- What the closing of a port performs: one event if one is open, none otherwise (45_session.md R235, R252). -/
theorem closeIfOpen_performs (s : State) : ∃ es, Performs 1 s (closeIfOpen s) es := by
  unfold closeIfOpen
  split
  · next ho => exact ⟨_, rfl, Nat.le_refl 1, rfl, ⟨rfl, rfl⟩, fun _ => by rw [ho]; rfl⟩
  · exact performs_refl 1 s

/-- What a read performs: the one event of a readline, with a port open (42_line.md R154). -/
theorem readIntoLine_performs {s : State}
    (ho : (s.sess = .sessionReady → s.status.opn = true) → s.status.opn = true) :
    Performs 1 s (readIntoLine s) [.readLine (nextLine s)] := by
  rw [readIntoLine_eq]
  exact ⟨rfl, Nat.le_refl 1, rfl, ⟨rfl, rfl⟩, fun hr => by rw [ho hr]; rfl⟩

/-- What the pipeline performs: at most the emission of a record, which the transport does not see
(20_memory.md R73, R75). -/
theorem processStep_performs (s : State) :
    ∃ es, Performs 1 s (processStep s).2 es := by
  obtain ⟨_, _, _, _, _, _, _, _, _, _, _, es, e, hes⟩ := processStep_frame s
  split at hes <;> subst hes <;> rw [e]
  · refine ⟨_, rfl, Nat.le_refl 1, rfl, ⟨rfl, rfl⟩, fun _ => ?_⟩
    cases s.status.opn <;> rfl
  · exact ⟨_, .nothing (List.append_nil _) rfl rfl ⟨rfl, rfl⟩⟩

/-- What a cycle performs, behind its check: the events of its read and of the pipeline (45_session.md R250). -/
theorem cycleStep_performs {s : State} (hq : s.sess = .sessionReady) : ∃ es, Performs 2 s (cycleStep s).2 es := by
  have hr := readIntoLine_performs (s := s) fun h => h hq
  unfold cycleStep
  split
  · exact ⟨_, { hr with bound := Nat.le_succ 1 }⟩
  · obtain ⟨es, hp⟩ := processStep_performs (readIntoLine s)
    refine ⟨.readLine (nextLine s) :: es, ?_, ?_, ?_, ?_, ?_⟩
    · rw [hp.hist, hr.hist, List.append_assoc]; rfl
    · exact Nat.succ_le_succ hp.bound
    · exact hp.port.trans (by rw [hr.port]; rfl)
    · exact ⟨hp.outside.1.trans hr.outside.1, hp.outside.2.trans hr.outside.2⟩
    · intro ho
      rw [← List.singleton_append, track_append, hr.rules ho]
      refine hp.rules ?_
      rw [readIntoLine_eq]
      exact ho

/-- One use of an open port that opens none: a write, a settle or a flush (20_memory.md R66, R68, R70, R71). -/
theorem performs_use (e : Event) {s t : State} (ho : s.status.opn = true) (he : trackEvent true e = some true)
    (hn : portsOpened [e] = []) (hh : t.hist = s.hist ++ [e]) (hp : t.port = s.port)
    (ht : t.status.opn = s.status.opn) (hx : sameOutside s t) : ∃ es, Performs 1 s t es := by
  refine ⟨[e], hh, Nat.le_refl 1, by rw [portFollows, hn]; exact hp, hx, fun _ => ?_⟩
  rw [ht, ho, track, he]
  rfl

/-- What every command performs before its `finish`. -/
theorem bodyOf_performs (i : Instr) (s : State) : ∃ es, Performs (eventBound s.params i) s (bodyOf i s).2 es := by
  cases i with
  | crcClr | crcByte | crcPack | lineClr | rspIdent | rspAck => exact ⟨[], .nothing rfl rfl rfl ⟨rfl, rfl⟩⟩
  | linePut b => simp only [bodyOf, linePutState_eq]; exact ⟨[], .nothing rfl rfl rfl ⟨rfl, rfl⟩⟩
  | frmVerify =>
    obtain ⟨_, _, _, _, _, e⟩ := verifyStep_frame s
    simp only [bodyOf, e]
    exact ⟨[], .nothing rfl rfl rfl ⟨rfl, rfl⟩⟩
  | frmTokenize =>
    obtain ⟨_, _, _, _, _, _, e⟩ := tokenizeStep_frame s
    simp only [bodyOf, e]
    exact ⟨[], .nothing rfl rfl rfl ⟨rfl, rfl⟩⟩
  | frmProcess => exact processStep_performs s
  | lineRead => exact guarded_performs fun hr => ⟨_, readIntoLine_performs fun _ => (readRefusal_eq_none.1 hr).2⟩
  | txProbe | xptSettle | xptFlush =>
    exact guarded_performs fun hr => performs_use _ (portRefusal_eq_none.1 hr).2 rfl rfl rfl rfl rfl ⟨rfl, rfl⟩
  | txSettings | txSetmode =>
    exact guarded_performs fun hr => performs_use _ (txRefusal_eq_none.1 hr).2.1 rfl rfl rfl rfl rfl ⟨rfl, rfl⟩
  | rspAddr =>
    refine guarded_performs fun _ => ⟨[], ?_⟩
    unfold takeAddress
    split <;> exact .nothing rfl rfl rfl ⟨rfl, rfl⟩
  | addrSet => exact guarded_performs fun _ => ⟨[], .nothing rfl rfl rfl ⟨rfl, rfl⟩⟩
  | xptOpen p =>
    refine guarded_performs fun hr => ?_
    split
    · exact xptOpen_performs _ _ (openRefusal_eq_none.1 hr).2
    · exact performs_refl 1 s
  | xptClose => exact guarded_performs fun _ => closeIfOpen_performs s
  | seqProbe p =>
    refine guarded_performs fun hr => ?_
    split
    · exact probePort_performs _ (openRefusal_eq_none.1 hr).2
    · exact performs_refl _ s
  | seqDiscover => exact guarded_performs fun hr => discoverAll_performs (openRefusal_eq_none.1 hr).2
  | seqEstablish p => exact guarded_performs fun hr => establishSession_performs _ (establishRefusal_eq_none.1 hr).2.1
  | seqCycle => exact guarded_performs fun hr => cycleStep_performs (cycleRefusal_eq_none.1 hr)
  | seqShutdown =>
    obtain ⟨es, h⟩ := closeIfOpen_performs s
    exact ⟨es, { h with }⟩

/-- Settles O42: a command ends in its body's state, and `finish` adds no event. -/
theorem commandsAppendBoundedEvents : Obligations.CommandsAppendBoundedEvents := by
  intro i s
  obtain ⟨es, h⟩ := bodyOf_performs i s
  exact ⟨_, es, exec_eq i s, h.hist, h.bound, h.outside⟩

/-- Settles O54: what a command performs keeps the rules from a history that kept them, and a ready session has its port
open (45_session.md R231 (b)). -/
theorem historyObeysTheTransportRules : Obligations.HistoryObeysTheTransportRules := by
  intro s t hs hh hst
  rcases step_next hst with rfl | ⟨-, rfl⟩ | ⟨after, rest, -, rfl⟩ | ⟨i, -, e⟩
  · exact hh
  · exact hh
  · rfl
  · obtain ⟨es, h⟩ := bodyOf_performs i (takeInput s)
    have hist : t.hist = s.hist ++ es := by rw [exec_next e]; exact h.hist
    rw [HistoryInv, hist, track_append, hh, exec_next e]
    exact h.rules fun hq => (hs.ready hq).1

/-! ## Who writes what -/

/-- From s to t command i changed no register or flag it does not write (10_state.md R23, R25, R35 to R43, R307, R308).
Each clause proves itself where the command leaves its registers alone or is one of their writers. -/
structure OnlyWriters (i : Instr) (s t : State) : Prop where
  crc : ¬ sameCrc s t → opcode i ∈ [0x10#8, 0x11#8, 0x12#8, 0x30#8, 0x32#8, 0x63#8] := by simp [opcode]
  addr : t.addr ≠ s.addr ∨ t.status.addrv ≠ s.status.addrv →
    s.sess = .idle ∧ opcode i ∈ [0x58#8, 0x48#8, 0x60#8, 0x61#8] := by simp [opcode]
  port : t.port ≠ s.port → opcode i ∈ [0x50#8, 0x60#8, 0x61#8, 0x62#8] := by simp [opcode]
  fport : t.fport ≠ s.fport → t.sess = .found ∧ opcode i ∈ [0x60#8, 0x61#8] := by simp [opcode]
  sess : t.sess ≠ s.sess → opcode i ∈ [0x60#8, 0x61#8, 0x62#8, 0x64#8] := by simp [opcode]
  frame : ¬ sameFrame s t → opcode i ∈ [0x31#8, 0x32#8, 0x63#8] := by simp [opcode]
  line : ¬ sameLine s t → opcode i ∈ [0x20#8, 0x21#8, 0x22#8, 0x60#8, 0x61#8, 0x62#8, 0x63#8] := by simp [opcode]
  lineClearsVfy : t.lbuf ≠ s.lbuf → t.status.vfy = false ∨ opcode i = 0x63 := by simp [opcode]
  vfySet : s.status.vfy = false → t.status.vfy = true → opcode i ∈ [0x30#8, 0x32#8, 0x63#8] := by
    simp +contextual [opcode]
  vfyCleared : s.status.vfy = true → t.status.vfy = false →
    opcode i ∈ [0x30#8, 0x32#8, 0x63#8, 0x20#8, 0x21#8, 0x22#8, 0x60#8, 0x61#8, 0x62#8] := by
    simp +contextual [opcode]
  autoSet : s.status.auto = false → t.status.auto = true → opcode i = 0x62 := by simp +contextual [opcode]
  autoCleared : s.status.auto = true → t.status.auto = false → opcode i = 0x64 := by simp +contextual [opcode]
  opn : t.status.opn ≠ s.status.opn → opcode i ∈ [0x50#8, 0x53#8, 0x60#8, 0x61#8, 0x62#8, 0x64#8] := by
    simp [opcode]
  fatal : t.status.fatal ≠ s.status.fatal → t.status.fatal = true ∧ opcode i ∈ [0x61#8, 0x62#8] := by simp [opcode]

/-- A command that leaves the state alone writes nothing. -/
theorem onlyWriters_refl (i : Instr) (s : State) : OnlyWriters i s s where
  crc h := absurd ⟨rfl, rfl, rfl, rfl⟩ h
  frame h := absurd ⟨rfl, rfl, rfl, rfl, rfl, rfl⟩ h
  line h := absurd ⟨rfl, rfl, rfl⟩ h

/-- A refused command writes nothing (60_exceptions.md R274). -/
theorem guarded_onlyWriters {i : Instr} {r : Option ResCode} {s : State} {b : ResCode × State}
    (hb : r = none → OnlyWriters i s b.2) : OnlyWriters i s (guarded r s b).2 :=
  guarded_keeps (P := OnlyWriters i s) (onlyWriters_refl i s) hb

/-- Following new events, VFY is clear where the line changed and where it was clear (10_state.md R25). -/
theorem lineFollows_vfy {s t : State} {es : List Event} (h : lineFollows s t es) :
    (t.lbuf ≠ s.lbuf → t.status.vfy = false) ∧ (s.status.vfy = false → t.status.vfy = false) := by
  unfold lineFollows at h
  split at h
  · obtain ⟨⟨hl, -, -⟩, hv⟩ := h
    exact ⟨fun hne => absurd hl hne, hv.trans⟩
  · obtain ⟨-, -, -, hv⟩ := h
    exact ⟨fun _ => hv, fun _ => hv⟩

/-- What a search writes: the update names it all; VFY is clear where the line changed and where it was clear, and FPORT
changes only with FOUND (45_session.md R237 to R239). -/
theorem search_leaves (cs : List (Nat × Nat)) {s : State} (hc : s.status.opn = false) :
    ∃ a pt fp q l es x tm ov vf av,
      (probeAll cs .openFailed (startScan s)).2 = { s with
        addr := a, port := pt, fport := fp, sess := q, lbuf := l, hist := es, xpt := x
        status := { s.status with term := tm, ovf := ov, vfy := vf, addrv := av, opn := false } } ∧
      (l ≠ s.lbuf → vf = false) ∧ (s.status.vfy = false → vf = false) ∧ (fp ≠ s.fport → q = .found) ∧
      ((probeAll cs .openFailed (startScan s)).1 ≠ .found → fp = s.fport) := by
  rcases probeAll_ends cs .openFailed (startScan s) nofun hc rfl with
    ⟨p, b, a, r1, r2, x, -, before, -, t, -, -, -, -, -, -, -, -, e, et⟩ |
    ⟨o, a, pt, l, es, x, tm, ov, vf, t, -, -, ⟨-, -, hl⟩, e, et⟩
  · rw [e, et]
    exact ⟨_, _, _, _, _, _, _, _, _, _, _, rfl, fun _ => rfl, fun _ => rfl, fun _ => rfl, fun h => absurd rfl h⟩
  · obtain ⟨hne, hv⟩ := lineFollows_vfy hl
    rw [et] at hne hv
    rw [e, et]
    exact ⟨_, _, _, _, _, _, _, _, _, _, _, rfl, hne, hv, fun h => absurd rfl h, fun _ => rfl⟩

/-- A search writes what SEQ.PROBE and SEQ.DISCOVER may write, and without FOUND not FPORT (10_state.md R40). -/
theorem search_onlyWriters {i : Instr} (hi : i = .seqDiscover ∨ ∃ p, i = .seqProbe p) (cs : List (Nat × Nat))
    {s : State} (hr : openRefusal s = none) :
    OnlyWriters i s (probeAll cs .openFailed (startScan s)).2 ∧
      ((probeAll cs .openFailed (startScan s)).1 ≠ .found →
        (probeAll cs .openFailed (startScan s)).2.fport = s.fport) := by
  obtain ⟨hq, hc⟩ := openRefusal_eq_none.1 hr
  obtain ⟨a, pt, fp, q, l, es, x, tm, ov, vf, av, e, hl, hv, hf, hn⟩ := search_leaves cs hc
  rw [e]
  refine ⟨?_, hn⟩
  rcases hi with rfl | ⟨p, rfl⟩ <;> exact {
    addr := fun _ => ⟨hq, by simp [opcode]⟩
    fport := fun h => ⟨hf h, by simp [opcode]⟩
    lineClearsVfy := fun h => .inl (hl h)
    vfySet := fun h0 h1 => absurd ((hv h0).symm.trans h1) Bool.false_ne_true }

/-- Every command's body writes only what the spec lets the command write. -/
theorem bodyOf_onlyWriters (i : Instr) (s : State) : OnlyWriters i s (bodyOf i s).2 := by
  cases i with
  | rspIdent | rspAck => exact onlyWriters_refl _ s
  | crcClr | crcByte | crcPack => simp only [bodyOf]; exact {}
  | lineClr => simp only [bodyOf]; exact {}
  | linePut b => simp only [bodyOf, linePutState_eq]; exact {}
  | frmVerify => obtain ⟨_, _, _, _, _, e⟩ := verifyStep_frame s; simp only [bodyOf, e]; exact {}
  | frmTokenize => obtain ⟨_, _, _, _, _, _, e⟩ := tokenizeStep_frame s; simp only [bodyOf, e]; exact {}
  | frmProcess =>
    obtain ⟨_, _, _, _, _, _, _, _, _, _, _, _, e, -⟩ := processStep_frame s
    simp only [bodyOf, e]
    exact {}
  | lineRead => refine guarded_onlyWriters fun _ => ?_; rw [readIntoLine_eq]; exact {}
  | txProbe | txSettings | txSetmode | xptSettle | xptFlush => exact guarded_onlyWriters fun _ => {}
  | addrSet a => exact guarded_onlyWriters fun hr => { addr := fun _ => ⟨idleRefusal_eq_none.1 hr, by simp [opcode]⟩ }
  | rspAddr =>
    refine guarded_onlyWriters fun hr => ?_
    unfold takeAddress
    split
    · exact { addr := fun _ => ⟨idleRefusal_eq_none.1 hr, by simp [opcode]⟩ }
    · exact onlyWriters_refl _ s
  | xptOpen p =>
    refine guarded_onlyWriters fun _ => ?_
    split
    · simp only [openManual]; exact {}
    · exact onlyWriters_refl _ s
  | xptClose =>
    refine guarded_onlyWriters fun _ => ?_
    unfold closeIfOpen
    split
    · exact {}
    · exact onlyWriters_refl _ s
  | seqProbe p =>
    refine guarded_onlyWriters fun hr => ?_
    split
    · obtain ⟨h, hf⟩ := search_onlyWriters (i := .seqProbe p) (.inr ⟨p, rfl⟩) (portCandidates s p.toNat) hr
      unfold probePort
      dsimp only
      split
      · exact h
      · next hn => exact { h with sess := by simp [opcode], fport := fun hne => absurd (hf hn) hne }
    · exact onlyWriters_refl _ s
  | seqDiscover =>
    refine guarded_onlyWriters fun hr => ?_
    obtain ⟨h, hf⟩ := search_onlyWriters (i := .seqDiscover) (.inl rfl) (allCandidates s) hr
    unfold discoverAll
    dsimp only
    split
    · exact h
    · next hn =>
      exact { h with sess := by simp [opcode], fatal := by simp [opcode], fport := fun hne => absurd (hf hn) hne }
  | seqEstablish p =>
    refine guarded_onlyWriters fun hr => ?_
    rcases establishSession_cases p.toNat s with ⟨-, e⟩ | ⟨-, e⟩ | ⟨-, r, x, v, -, -, e⟩ <;> rw [e]
    · exact {}
    · exact {}
    · cases v <;> exact {}
  | seqCycle =>
    refine guarded_onlyWriters fun _ => ?_
    unfold cycleStep
    obtain ⟨_, _, _, _, _, _, _, _, _, _, _, _, e, -⟩ := processStep_frame (readIntoLine s)
    split
    · rw [readIntoLine_eq]; exact {}
    · rw [e, readIntoLine_eq]; exact {}
  | seqShutdown =>
    simp only [bodyOf, closeIfOpen]
    split
    · exact {}
    · exact {}

/-- Settles O47: what a command writes and performs, and `finish` writes RES and BUSY alone. -/
theorem registersHaveOnlyTheirWriters : Obligations.RegistersHaveOnlyTheirWriters := by
  intro i s t he
  obtain ⟨es, hp⟩ := bodyOf_performs i s
  have w := bodyOf_onlyWriters i s
  rw [exec_next he]
  exact ⟨w.crc, w.addr, w.port, ⟨es, hp.hist, hp.port⟩, w.fport, w.sess, w.frame, w.line, w.lineClearsVfy, w.vfySet,
    w.vfyCleared, w.autoSet, w.autoCleared, w.opn, w.fatal⟩

/-! ## Setup failures and the terminal states -/

/-- The commands that write SESS keep a terminal state: the first three are refused there, and a shutdown leaves it
(10_state.md R35, 45_session.md R230, R252). -/
theorem bodyOf_terminal (i : Instr) {s : State} (h : s.sess = .notFound ∨ s.sess = .sessionFailed) :
    (bodyOf i s).2.sess = s.sess := by
  by_contra hne
  have hw := (bodyOf_onlyWriters i s).sess hne
  cases i <;> simp [opcode] at hw
  case seqProbe p | seqDiscover =>
    refine hne (guarded_keeps (P := fun t => t.sess = s.sess) rfl fun hr => ?_)
    rcases h with h | h <;> exact absurd ((openRefusal_eq_none.1 hr).1.symm.trans h) nofun
  case seqEstablish p =>
    refine hne (guarded_keeps (P := fun t => t.sess = s.sess) rfl fun hr => ?_)
    obtain ⟨hq, -⟩ := establishRefusal_eq_none.1 hr
    rcases h with h | h <;> rw [h] at hq <;> exact absurd hq (by decide)
  case seqShutdown =>
    refine hne ?_
    simp only [bodyOf, closeIfOpen]
    split <;> rcases h with h | h <;> simp [h, shutdownSess]

/-- Settles O46: FATAL is written only to 1, and no command leaves a terminal state. -/
theorem onlyResetLeavesATerminalState : Obligations.OnlyResetLeavesATerminalState := by
  intro s t hn hst
  rcases step_next hst with rfl | ⟨-, rfl⟩ | ⟨after, rest, hr, rfl⟩ | ⟨i, -, e⟩
  · exact ⟨id, fun _ => rfl⟩
  · exact ⟨id, fun _ => rfl⟩
  · exact absurd hr (hn after rest)
  · rw [exec_next e]
    refine ⟨fun hf => ?_, fun hq => bodyOf_terminal i (s := takeInput s) hq⟩
    by_contra hc
    exact hc ((bodyOf_onlyWriters i (takeInput s)).fatal fun h => hc (h.trans hf)).1

/-- The commands that report a setup failure (60_exceptions.md R271, R272 (b)). -/
theorem setupFailure_cases {i : Instr} {c : ResCode} (hm : c ∈ mayReport i) (hf : setupFailure i c = true) :
    (i = .seqDiscover ∧ c = .notFound) ∨ ∃ p, i = .seqEstablish p ∧ (c = .setupFailed ∨ c = .openFailed) := by
  cases c with
  | notFound =>
    cases i <;> simp [mayReport] at hm
    exact .inl ⟨rfl, rfl⟩
  | setupFailed =>
    cases i <;> simp [mayReport] at hm
    exact .inr ⟨_, rfl, .inl rfl⟩
  | openFailed =>
    cases i <;> simp [setupFailure, opcode] at hf
    exact .inr ⟨_, rfl, .inr rfl⟩
  | _ => exact absurd hf Bool.false_ne_true

/-- A discovery that does not find the device is fatal, with the transport closed (45_session.md R239). -/
theorem discoverAll_notFound {s : State} (hc : s.status.opn = false) (h : (discoverAll s).1 = .notFound) :
    (discoverAll s).2.status.opn = false ∧ (discoverAll s).2.status.fatal = true ∧
      (discoverAll s).2.sess = .notFound := by
  refine ⟨discoverAll_opn hc, ?_⟩
  revert h
  unfold discoverAll
  dsimp only
  split
  · exact nofun
  · exact fun _ => ⟨rfl, rfl⟩

/-- An establishment that fails is fatal, with the transport closed (45_session.md R246). -/
theorem establishSession_fails {p : Nat} {s : State} (hc : s.status.opn = false) (h : (establishSession p s).1 ≠ .ok) :
    (establishSession p s).2.status.opn = false ∧ (establishSession p s).2.status.fatal = true ∧
      (establishSession p s).2.sess = .sessionFailed := by
  rcases establishSession_cases p s with ⟨-, e⟩ | ⟨-, e⟩ | ⟨-, r, x, v, -, -, e⟩ <;> rw [e] at h ⊢
  · exact ⟨hc, rfl, rfl⟩
  · exact ⟨hc, rfl, rfl⟩
  · cases v with
    | true => exact absurd rfl h
    | false => exact ⟨rfl, rfl, rfl⟩

/-- Settles O45: only SEQ.DISCOVER and SEQ.ESTABLISH report a setup failure, each only where it is not refused. -/
theorem setupFailuresAreFatal : Obligations.SetupFailuresAreFatal := by
  intro i s t he hf
  rw [exec_next he] at hf ⊢
  rcases setupFailure_cases (bodyOf_code_mem i s) hf with ⟨rfl, hc⟩ | ⟨p, rfl, hc⟩
  · rcases guarded_cases (openRefusal s) s (discoverAll s) with ⟨c, hr, e⟩ | ⟨hr, e⟩ <;> simp only [bodyOf, e] at hc ⊢
    · subst hc
      exact absurd (openRefusal_code s _ hr) (by decide)
    · obtain ⟨ho, hft, hq⟩ := discoverAll_notFound (openRefusal_eq_none.1 hr).2 hc
      exact ⟨ho, hft, .inl hq⟩
  · rcases guarded_cases (establishRefusal s) s (establishSession p.toNat s) with ⟨c, hr, e⟩ | ⟨hr, e⟩ <;>
      simp only [bodyOf, e] at hc ⊢
    · have hb := establishRefusal_code s c hr
      rcases hc with rfl | rfl <;> exact absurd hb (by decide)
    · obtain ⟨ho, hft, hq⟩ := establishSession_fails (establishRefusal_eq_none.1 hr).2.1 (p := p.toNat)
        (by rcases hc with hc | hc <;> rw [hc] <;> decide)
      exact ⟨ho, hft, .inr hq⟩

/-! ## The header and checksum registers -/

/-- `0x40 | x` with x below 0x40 is their sum (41_crc.md R122). -/
theorem or_0x40 {x : Nat} (h : x < 2 ^ 6) : 0x40 ||| x = 0x40 + x :=
  (Nat.two_pow_add_eq_or_of_lt h 1).symm

/-- The ranges of the three checksum bytes (41_crc.md R123). -/
theorem pack_range (c : Word) :
    (0x40 ≤ (pack0 c).toNat ∧ (pack0 c).toNat ≤ 0x4F) ∧ (0x40 ≤ (pack1 c).toNat ∧ (pack1 c).toNat ≤ 0x7F) ∧
      (0x40 ≤ (pack2 c).toNat ∧ (pack2 c).toNat ≤ 0x7F) := by
  have h0 : (c.extractLsb' 12 4).toNat < 2 ^ 4 := (c.extractLsb' 12 4).isLt
  have h1 : (c.extractLsb' 6 6).toNat < 2 ^ 6 := (c.extractLsb' 6 6).isLt
  have h2 : (c.extractLsb' 0 6).toNat < 2 ^ 6 := (c.extractLsb' 0 6).isLt
  rw [toNat_pack0, toNat_pack1, toNat_pack2, or_0x40 (by omega), or_0x40 h1, or_0x40 h2]
  omega

/-- A recognised header piece has three bytes, and its code bytes select the type (43_frame.md R174, R179). -/
theorem header_of_classify {h : Bytes} (hc : classify h.tail ≠ .none) :
    h.length = 3 ∧ h.tail = [h.getD 1 0, h.getD 2 0] := by
  have hl := classify_length hc
  match h, hl with
  | [a, b, c], _ => exact ⟨rfl, rfl⟩

/-- CHK0 to CHK2 after a reset hold the packed checksum 0 (10_state.md R47). -/
theorem reset_chkInv : ChkInv State.reset := by decide

/-- Settles O52: MTYPE is written with its header only, CHK with a packed checksum only. -/
theorem headerAndChecksumRegistersStayLegal : Obligations.HeaderAndChecksumRegistersStayLegal := by
  intro s t hst
  refine ⟨fun h => ?_, fun h => ?_⟩
  · refine step_updates (P := HeaderInv) (fun _ _ h => h) (fun _ h => h) (fun _ _ h => h)
      (fun _ _ _ hm => absurd rfl hm) (fun _ _ _ _ _ _ _ _ _ _ _ _ _ _ _ h => h) (fun _ _ h => h) (fun _ _ h => h)
      (fun _ _ hm => absurd rfl hm) (fun _ hd _ _ hm => ?_) hst h
    obtain ⟨hl, ht⟩ := header_of_classify hm
    exact ⟨congrArg (BitVec.ofNat 16) hl, congrArg classify ht.symm⟩
  · exact step_updates (P := ChkInv) (fun _ _ h => h) (fun _ h => h) (fun _ _ h => h) (fun _ _ _ => reset_chkInv)
      (fun _ _ _ _ _ _ _ _ _ _ _ _ _ _ _ h => h) (fun _ _ h => h) (fun _ c _ => pack_range c) (fun _ h => h)
      (fun _ _ _ h => h) hst h

/-! ## The flush -/

/-- XPT.FLUSH where it runs (45_session.md R234). -/
theorem exec_xptFlush {s : State} (hq : s.sess = .idle) (ho : s.status.opn = true) :
    exec .xptFlush s = .next (finished .ok (xptFlush s)) := by
  rw [exec_eq, bodyOf, guarded_none (portRefusal_eq_none.2 ⟨hq, ho⟩)]

/-- Settles O18: the flush empties the queue, and nothing else it writes comes from there. -/
theorem flushForgetsReceivedBytes : Obligations.FlushForgetsReceivedBytes := by
  intro s q hq ho
  rw [exec_xptFlush hq ho, exec_xptFlush (s := { s with xpt := { s.xpt with rx := q } }) hq ho]
  exact ⟨rfl, _, rfl, rfl⟩

/-! ## What the host reads -/

/-- The register numbers from 0x0F on read 0 (10_state.md R22). -/
theorem rdReg_reserved {n : Byte} (h : 0x0F ≤ n.toNat) (s : State) : rdReg n s = 0 := by
  unfold rdReg
  split
  case h_16 => rfl
  all_goals omega

/-- A byte register reads its value, with zeros above (10_state.md R20). -/
theorem toNat_setWidth_byte (b : Byte) : (b.setWidth 16).toNat = b.toNat :=
  BitVec.toNat_setWidth_of_le (by decide)

/-- SESS reads its value (10_state.md R35). -/
theorem toNat_sess_code (q : Sess) : (q.code.setWidth 16).toNat = Claims.sessValue q := by
  cases q <;> rfl

/-- Settles O58: by the register map, and by what a list holds at an index. -/
theorem hostReadsFollowTheRegisterMap : Obligations.HostReadsFollowTheRegisterMap := by
  intro s
  refine ⟨⟨rfl, toNat_sess_code _, rfl, toNat_setWidth_byte _, toNat_setWidth_byte _, toNat_setWidth_byte _,
    toNat_setWidth_byte _, toNat_setWidth_byte _, toNat_setWidth_byte _, fun h => ?_, toNat_setWidth_byte _,
    toNat_setWidth_byte _, toNat_setWidth_byte _, rfl, fun h => ?_, fun n h => rdReg_reserved h s⟩,
    fun k h => ?_, fun k h => ?_, fun k h => ?_, fun k h => ?_⟩
  · exact Nat.mod_eq_of_lt (by omega)
  · exact Nat.mod_eq_of_lt (by omega)
  · rw [rdLbuf, List.getD_eq_getElem _ _ h, List.getElem?_eq_getElem h]
  · exact List.getD_eq_default _ _ h
  · rw [rdTok, List.getD_eq_getElem _ _ h, List.getElem?_eq_getElem h]
  · exact List.getD_eq_default _ _ h

/-- The registers right after reset (10_state.md R47). -/
theorem rdReg_resetBlock (n : Byte) (after : Transport) (s : State) :
    rdReg n (resetBlock after s) = if n = 3 ∨ n = 4 ∨ n = 5 then 0x0040 else 0x0000 := by
  show rdReg n State.reset = _
  revert n
  decide

/-- Settles O8: the step is the reset. -/
theorem resetGivesTheTableValues : Obligations.ResetGivesTheTableValues := by
  intro s after rest hh
  exact ⟨resetBlock after { s with host := rest }, by simp [step, fetch, hh], fun n => rdReg_resetBlock n _ _,
    rfl, rfl, rfl, rfl, rfl, rfl, rfl, rfl⟩

/-- Settles O56: the reset state is one concrete state. -/
theorem resetMeetsTheInvariants : Obligations.ResetMeetsTheInvariants :=
  ⟨by constructor <;> decide, reset_memory_wf, nofun, by decide, by decide, nofun, rfl, nofun, by decide⟩

/-- RES has the values of its table (60_exceptions.md R271). -/
theorem toNat_res_code (c : ResCode) : c.code.toNat = Claims.resValue c := by
  cases c <;> rfl

/-- MTYPE has the values of its table (10_state.md R29). -/
theorem toNat_mtype_code (m : MsgType) : m.code.toNat = Claims.mtypeValue m := by
  cases m <;> rfl

/-- A bit of the STATUS word, looked up field by field from bit 0 (10_state.md R23). -/
theorem getLsbD_status_word (t : Status) {i : Nat} (h : i < 16) : t.word.getLsbD i =
    if i < 4 then t.res.code.getLsbD i else
    if i < 8 then [t.vfy, t.opn, t.addrv, t.auto].getD (i - 4) false else
    if i < 11 then t.mtype.code.getLsbD (i - 8) else
    [t.term, t.ovf, t.fatal, t.busy].getD (i - 11) false := by
  simp only [Status.word, bit, BitVec.getLsbD_append, BitVec.getLsbD_ofBool]
  interval_cases i <;> simp

/-- Bits 3 to 0 of the STATUS word are RES (10_state.md R23). -/
theorem status_word_res (t : Status) : t.word.extractLsb' 0 4 = t.res.code := by
  refine BitVec.eq_of_getLsbD_eq fun i hi => ?_
  rw [BitVec.getLsbD_extractLsb', Nat.zero_add, getLsbD_status_word t (by omega), if_pos hi, decide_eq_true hi,
    Bool.true_and]

/-- Bits 10 to 8 of the STATUS word are MTYPE (10_state.md R23). -/
theorem status_word_mtype (t : Status) : t.word.extractLsb' 8 3 = t.mtype.code := by
  refine BitVec.eq_of_getLsbD_eq fun i hi => ?_
  rw [BitVec.getLsbD_extractLsb', getLsbD_status_word t (by omega), if_neg (by omega), if_neg (by omega),
    if_pos (by omega), Nat.add_sub_cancel_left, decide_eq_true hi, Bool.true_and]

/-- Settles O57: each field stands at its bits of the word. -/
theorem statusWordHasItsLayout : Obligations.StatusWordHasItsLayout := by
  intro t
  have flag {i : Nat} (h : i < 16) := getLsbD_status_word t h
  rw [status_word_res, status_word_mtype]
  exact ⟨flag (by decide), toNat_res_code _, flag (by decide), flag (by decide), flag (by decide), flag (by decide),
    toNat_mtype_code _, flag (by decide), flag (by decide), flag (by decide), flag (by decide)⟩

end Sys2Proof.Proofs

/-! PROOFS. The statements of 20_memory.md: what the command port does with a word (R65, R91), what LINE.READ and the
manual transport commands do (R67, R69 to R72), the data of the events in H (R64, R73), the local commands (R75) and what
the host sees while a command runs (R74). -/

namespace Sys2Proof.Proofs

open Sys2Proof.Machine

/-! ## The command port -/

/-- A word next in the host's inputs is presented (30_encoding.md R91). -/
theorem fetch_word {s : State} {w : Word} {rest : List HostInput} (h : s.host = .word w :: rest) :
    fetch s = present w s := by
  unfold fetch; rw [h]

/-- Two bytes next in the host's inputs are presented as one word, opcode byte first (20_memory.md R65). -/
theorem fetch_wordBytes {s : State} {a b : Byte} {rest : List HostInput} (h : s.host = .wordBytes a b :: rest) :
    fetch s = present (a ++ b) s := by
  unfold fetch; rw [h]; rfl

/-- With no input the block is idle (60_exceptions.md R287). -/
theorem step_of_host_nil {s : State} (h : s.host = []) : step s = .next s := by
  simp [step, fetch, h]

/-- A word presented while BUSY = 1 waits (30_encoding.md R91). -/
theorem step_of_busy {s : State} {w : Word} (hf : fetch s = present w s) (hb : s.status.busy = true) :
    step s = .next s := by
  rw [step, hf, present, if_pos hb]

/-- An illegal word presented at BUSY = 0 is taken and ends with ILLEGAL (60_exceptions.md R273). -/
theorem step_of_illegal {s : State} {w : Word} {e : DecodeError} (hf : fetch s = present w s)
    (hb : s.status.busy = false) (hd : decode w = .illegal e) :
    step s = .next (finished .illegal (takeInput s)) := by
  rw [step, hf, present, if_neg (by rw [hb]; exact Bool.false_ne_true), hd]

/-- Settles O7: an idle block rests, and a busy one leaves the word where it is. -/
theorem idleAndBusyStepsKeepTheState : Obligations.IdleAndBusyStepsKeepTheState :=
  fun _ => ⟨step_of_host_nil, fun _ _ h hb => step_of_busy (fetch_word h) hb,
    fun _ _ _ h hb => step_of_busy (fetch_wordBytes h) hb⟩

/-- A command without operand is decoded only from the operand 0x00 (30_encoding.md R94). -/
theorem bare_eq_command {i j : Instr} {op imm : Byte} (h : bare i op imm = .command j) : imm = 0 := by
  unfold bare at h
  split at h
  · assumption
  · cases h

/-- What decodes to a command has an assigned opcode, and the operand 0x00 where none is taken (30_encoding.md R94,
R95). -/
theorem decodeFields_eq_command {op imm : Byte} {i : Instr} (h : decodeFields op imm = .command i) :
    opUnassigned op = false ∧ (opTakesOperand op = true ∨ imm = 0) := by
  unfold decodeFields at h
  split at h
  case h_2 | h_5 | h_16 | h_20 | h_21 | h_23 => exact ⟨by decide, .inl (by decide)⟩
  case h_26 => cases h
  all_goals exact ⟨by decide, .inr (bare_eq_command h)⟩

/-- A word that is not legal decodes to no command (30_encoding.md R94, R95). -/
theorem decode_of_not_wordOk {w : Word} (h : wordOk w = false) : ∃ e, decode w = .illegal e := by
  cases hd : decode w with
  | illegal e => exact ⟨e, rfl⟩
  | command i =>
    obtain ⟨ha, ho⟩ := decodeFields_eq_command hd
    have hw : wordOk w = true := by
      simp only [wordOk, Bool.and_eq_true, Bool.not_eq_true', Bool.or_eq_true, beq_iff_eq]
      exact ⟨ha, ho⟩
    exact absurd (h.symm.trans hw) Bool.false_ne_true

/-- What an illegal word leaves, written out: its input is taken and RES set (60_exceptions.md R273). -/
theorem finished_illegal_takeInput {s : State} {x : HostInput} {rest : List HostInput} (hh : s.host = x :: rest)
    (hb : s.status.busy = false) :
    finished .illegal (takeInput s) = { s with host := rest, status := { s.status with res := .illegal } } := by
  simp [finished, takeInput, accept, hh, hb]

/-- Settles O6: a word that is not legal decodes to no command, whole or as its two bytes. -/
theorem illegalWordChangesOnlyRes : Obligations.IllegalWordChangesOnlyRes := by
  intro s rest hb
  refine ⟨fun w hh hw => ?_, fun a b hh hw => ?_⟩
  · obtain ⟨e, hd⟩ := decode_of_not_wordOk hw
    rw [step_of_illegal (fetch_word hh) hb hd, finished_illegal_takeInput hh hb]
  · obtain ⟨e, hd⟩ := decode_of_not_wordOk hw
    rw [step_of_illegal (fetch_wordBytes hh) hb hd, finished_illegal_takeInput hh hb]

/-! ## The checks of the transport commands -/

/-- LINE.READ is refused outside IDLE and SESSION_READY (42_line.md R154). -/
theorem readRefusal_badState {s : State} (hi : s.sess ≠ .idle) (hr : s.sess ≠ .sessionReady) :
    readRefusal s = some .badState := by
  rw [readRefusal, if_pos ⟨hi, hr⟩]

/-- LINE.READ is refused with no port open (42_line.md R154). -/
theorem readRefusal_notOpen {s : State} (hq : s.sess = .idle ∨ s.sess = .sessionReady) (ho : s.status.opn = false) :
    readRefusal s = some .notOpen := by
  rw [readRefusal, if_neg (by tauto), if_pos ho]

/-- TX.PROBE, XPT.SETTLE and XPT.FLUSH are refused outside IDLE (45_session.md R230). -/
theorem portRefusal_badState {s : State} (h : s.sess ≠ .idle) : portRefusal s = some .badState := by
  rw [portRefusal, if_pos h]

/-- TX.PROBE, XPT.SETTLE and XPT.FLUSH are refused with no port open (45_session.md R233, R234). -/
theorem portRefusal_notOpen {s : State} (hq : s.sess = .idle) (ho : s.status.opn = false) :
    portRefusal s = some .notOpen := by
  rw [portRefusal, if_neg (not_not_intro hq), if_pos ho]

/-- RSP.ADDR, XPT.CLOSE and ADDR.SET are refused outside IDLE (45_session.md R230). -/
theorem idleRefusal_badState {s : State} (h : s.sess ≠ .idle) : idleRefusal s = some .badState := by
  rw [idleRefusal, if_pos h]

/-- XPT.OPEN, SEQ.PROBE and SEQ.DISCOVER are refused outside IDLE and with a port open (45_session.md R232). -/
theorem openRefusal_badState {s : State} (h : s.sess ≠ .idle ∨ s.status.opn = true) :
    openRefusal s = some .badState := by
  unfold openRefusal
  split_ifs with hq ho
  · rfl
  · rfl
  · exact absurd h (by tauto)

/-- A command whose checks refuse it reports the code and changes nothing else (60_exceptions.md R274). -/
theorem exec_of_refused {i : Instr} {s : State} {r : Option ResCode} {b : ResCode × State} {c : ResCode}
    (hi : bodyOf i s = guarded r s b) (hr : r = some c) : exec i s = .next (finished c s) := by
  rw [exec_eq, hi, guarded_some hr]

/-- A command whose checks pass does what its body does (60_exceptions.md R274). -/
theorem exec_of_allowed {i : Instr} {s : State} {r : Option ResCode} {b : ResCode × State}
    (hi : bodyOf i s = guarded r s b) (hr : r = none) : exec i s = .next (finished b.1 b.2) := by
  rw [exec_eq, hi, guarded_none hr]

/-! ## LINE.READ -/

/-- In a legal line nothing stands behind a 0x0A (20_memory.md R69). -/
theorem eq_nil_of_lineLegal {x y : Bytes} (h : lineLegal (x ++ 0x0A :: y) = true) : y = [] := by
  by_contra hy
  have hm : 0x0A ∈ (x ++ 0x0A :: y).dropLast := by
    simp [List.dropLast_append_of_ne_nil, List.dropLast_cons_of_ne_nil hy]
  rw [lineLegal, List.contains_iff_mem.2 hm] at h
  exact absurd h Bool.false_ne_true

/-- Settles O17: a read refused by its checks, or a line cut by the transport and loaded. -/
theorem lineReadStoresTheLine : Obligations.LineReadStoresTheLine := by
  intro s
  refine ⟨fun hi hr => exec_of_refused rfl (readRefusal_badState hi hr),
    fun hq ho => exec_of_refused rfl (readRefusal_notOpen hq ho), fun hq ho => ?_⟩
  have hl := nextLine_legal s
  refine ⟨hl, fun x y e => eq_nil_of_lineLegal (e ▸ hl), ?_⟩
  rw [exec_of_allowed rfl (readRefusal_eq_none.2 ⟨hq, ho⟩), lineReadCode, readIntoLine_eq, endsInLf_eq]

/-! ## The manual transport commands -/

/-- The port byte of an operand is the operand (30_encoding.md R93). -/
@[simp] theorem portByte_toNat (p : Byte) : portByte p.toNat = p := by
  simp [portByte]

/-- XPT.OPEN in IDLE with no port open, on a port that is a candidate (45_session.md R232). -/
theorem exec_xptOpen {s : State} {p : Byte} (hq : s.sess = .idle) (ho : s.status.opn = false)
    (hp : p.toNat < s.params.nports) :
    exec (.xptOpen p) s =
      .next (finished (if nextOpen s then .ok else .openFailed) (xptOpen p.toNat sessionBaud s)) := by
  rw [exec_of_allowed rfl (openRefusal_eq_none.2 ⟨hq, ho⟩), portLegal, decide_eq_true hp, if_pos rfl, openManual]

/-- XPT.OPEN in IDLE with no port open, on an index that is no port (45_session.md R232). -/
theorem exec_xptOpen_noPort {s : State} {p : Byte} (hq : s.sess = .idle) (ho : s.status.opn = false)
    (hp : s.params.nports ≤ p.toNat) : exec (.xptOpen p) s = .next (finished .openFailed s) := by
  rw [exec_of_allowed rfl (openRefusal_eq_none.2 ⟨hq, ho⟩), portLegal, decide_eq_false (by omega),
    if_neg Bool.false_ne_true]

/-- Settles O32: by the checks of XPT.OPEN and the transport's answer. -/
theorem xptOpenGivesItsResult : Obligations.XptOpenGivesItsResult := by
  intro s p
  refine ⟨fun h => exec_of_refused rfl (openRefusal_badState h), exec_xptOpen_noPort,
    fun hq ho hp => ⟨fun hn => ?_, fun hn => ?_⟩⟩
  · rw [exec_xptOpen hq ho hp, xptOpen_ok _ _ hn, hn, portByte_toNat]; rfl
  · rw [exec_xptOpen hq ho hp, xptOpen_fail _ _ hn, hn]; rfl

/-- XPT.SETTLE where it runs (45_session.md R233). -/
theorem exec_xptSettle {s : State} (hq : s.sess = .idle) (ho : s.status.opn = true) :
    exec .xptSettle s = .next (finished .ok (xptSettle s)) :=
  exec_of_allowed (i := .xptSettle) (b := (.ok, xptSettle s)) rfl (portRefusal_eq_none.2 ⟨hq, ho⟩)

/-- XPT.CLOSE in IDLE (45_session.md R235). -/
theorem exec_xptClose {s : State} (hq : s.sess = .idle) :
    exec .xptClose s = .next (finished .ok (closeIfOpen s)) :=
  exec_of_allowed (i := .xptClose) (b := (.ok, closeIfOpen s)) rfl (idleRefusal_eq_none.2 hq)

/-- ADDR.SET in IDLE (45_session.md R236). -/
theorem exec_addrSet {s : State} (a : Byte) (hq : s.sess = .idle) :
    exec (.addrSet a) s = .next (finished .ok (setAddr a s)) :=
  exec_of_allowed (i := .addrSet a) (b := (.ok, setAddr a s)) rfl (idleRefusal_eq_none.2 hq)

/-- Closing with no port open does nothing (45_session.md R235). -/
theorem closeIfOpen_of_closed {s : State} (h : s.status.opn = false) : closeIfOpen s = s := by
  rw [closeIfOpen, h, if_neg Bool.false_ne_true]

/-- Closing with a port open is the transport's close (45_session.md R235). -/
theorem closeIfOpen_of_open {s : State} (h : s.status.opn = true) : closeIfOpen s = xptClose s := by
  rw [closeIfOpen, if_pos h]

/-- Settles O33: each command is refused by its checks or does what its primitive does. -/
theorem manualTransportCommandsGiveTheirResult : Obligations.ManualTransportCommandsGiveTheirResult := by
  intro s a
  refine ⟨fun hq => ?_, fun hq => ⟨exec_addrSet a hq, fun ho => ?_, fun ho => ?_⟩⟩
  · have hp := portRefusal_badState hq
    have hi := idleRefusal_badState hq
    exact ⟨exec_of_refused rfl hp, exec_of_refused rfl hp, exec_of_refused rfl hi, exec_of_refused rfl hi⟩
  · have hp := portRefusal_notOpen hq ho
    exact ⟨exec_of_refused rfl hp, exec_of_refused rfl hp, by rw [exec_xptClose hq, closeIfOpen_of_closed ho]⟩
  · exact ⟨exec_xptSettle hq ho, exec_xptFlush hq ho, by rw [exec_xptClose hq, closeIfOpen_of_open ho]; rfl⟩

/-! ## The events of H -/

/-- H with legal events at its new end (20_memory.md R64). -/
theorem eventsInv_append {s t : State} {es : List Event} (h : EventsInv s) (hh : t.hist = s.hist ++ es)
    (hp : t.params = s.params) (he : ∀ e ∈ es, eventLegal s.params e) : EventsInv t := by
  rw [EventsInv, hh, hp]
  exact List.forall_mem_append.2 ⟨h, he⟩

/-- H with one legal event more. -/
theorem eventsInv_log {s : State} {e : Event} (h : EventsInv s) (he : eventLegal s.params e) :
    EventsInv (logEvent e s) :=
  eventsInv_append h rfl rfl (List.forall_mem_singleton.2 he)

/-- The events of a first request with one of the command frames (45_session.md R237, R246). -/
theorem requestEvents_legal {q : Params} {frame r : Bytes} (hf : eventLegal q (.write frame))
    (hr : lineLegal r = true) : ∀ e ∈ requestEvents frame r, eventLegal q e := by
  simp only [requestEvents, List.forall_mem_cons]
  exact ⟨trivial, trivial, hf, hr, nofun⟩

/-- An open of a candidate, whatever the transport answers (20_memory.md R67). -/
theorem eventsInv_xptOpen {s : State} {p b : Nat} (h : EventsInv s) (hp : p < s.params.nports)
    (hb : b ∈ s.params.bauds ∨ b = sessionBaud) : EventsInv (xptOpen p b s) :=
  eventsInv_append h rfl rfl (List.forall_mem_singleton.2 ⟨hp, hb⟩)

/-- A line read is legal as the transport returns it (20_memory.md R69). -/
theorem eventsInv_readIntoLine {s : State} (h : EventsInv s) : EventsInv (readIntoLine s) := by
  rw [readIntoLine_eq]
  exact eventsInv_append h rfl rfl (List.forall_mem_singleton.2 (nextLine_legal s))

/-- A port closed adds an event with no data, if any (45_session.md R235, R252). -/
theorem eventsInv_closeIfOpen {s : State} (h : EventsInv s) : EventsInv (closeIfOpen s) := by
  unfold closeIfOpen
  split
  · exact eventsInv_append h rfl rfl (List.forall_mem_singleton.2 trivial)
  · exact h

/-- The record of a tokenize step that ends with OK has a recognised code (20_memory.md R73, 43_frame.md R181). -/
theorem tokenRecord_legal {q : Params} {s t : State} (h : tokenizeStep s = (.ok, t)) :
    eventLegal q (.emit (tokenRecord t)) := by
  rcases tokenizeStep_cases s with ⟨-, e⟩ | ⟨-, -, e⟩ | ⟨hd, fields, -, -, -, ⟨-, e⟩ | ⟨-, e⟩⟩ <;> rw [h] at e
  case inr.inr.inr =>
    obtain ⟨hc, rfl⟩ := Prod.mk.inj e
    have hm : classify hd.tail ≠ .none := by
      intro hn
      rw [if_pos hn] at hc
      cases hc
    obtain ⟨-, ht⟩ := header_of_classify hm
    exact ⟨hm, congrArg classify ht.symm⟩
  all_goals cases e

/-- The pipeline adds at most the record of a tokenize step that ended with OK (43_frame.md R183). -/
theorem eventsInv_processStep {s : State} (h : EventsInv s) : EventsInv (processStep s).2 := by
  obtain ⟨_, _, _, _, _, ev⟩ := verifyStep_frame (clearFrame s)
  have hv : EventsInv (verifyStep (clearFrame s)).2 := by rw [ev]; exact h
  have ht : ∀ u, EventsInv u → EventsInv (tokenizeStep u).2 := by
    intro u hu
    obtain ⟨_, _, _, _, _, _, et⟩ := tokenizeStep_frame u
    rw [et]; exact hu
  rcases processStep_cases s with ⟨c, -, -, e⟩ | ⟨c, u, hu, -, -, e⟩ | ⟨u, t, hu, hok, e⟩ <;> rw [e]
  · exact hv
  · rw [hu] at hv; exact ht u hv
  · rw [hu] at hv
    have h2 := ht u hv
    rw [hok] at h2
    exact eventsInv_log h2 (tokenRecord_legal hok)

/-- The probe of a candidate: an open, the probe and settings requests, and the close (45_session.md R237). -/
theorem eventsInv_probeCandidate {s : State} {p b : Nat} (h : EventsInv s) (hp : p < s.params.nports)
    (hb : b ∈ s.params.bauds) : EventsInv (probeCandidate p b s).2 := by
  have ho : ∀ ok, eventLegal s.params (.openPort p b ok) := fun _ => ⟨hp, .inl hb⟩
  have hq : ∀ r, lineLegal r = true → ∀ e ∈ requestEvents probeFrame r, eventLegal s.params e :=
    fun r => requestEvents_legal (.inl rfl)
  rcases probeCandidate_cases p b s with e | ⟨r, x, l, -, e⟩ | ⟨r1, r2, x, a, v, l1, l2, -, -, -, e⟩ <;> rw [e]
  · exact eventsInv_append h rfl rfl (List.forall_mem_singleton.2 (ho _))
  · refine eventsInv_append h rfl rfl (List.forall_mem_append.2 ⟨List.forall_mem_cons.2 ⟨ho _, hq r l⟩, ?_⟩)
    exact List.forall_mem_singleton.2 trivial
  · refine eventsInv_append h rfl rfl (List.forall_mem_append.2 ⟨List.forall_mem_cons.2 ⟨ho _, hq r1 l1⟩, ?_⟩)
    simp only [List.forall_mem_cons]
    exact ⟨trivial, .inr ⟨a, .inl rfl⟩, l2, trivial, nofun⟩

/-- A search over candidate ports and baud rates (45_session.md R238, R239). -/
theorem eventsInv_probeAll {cs : List (Nat × Nat)} {s : State} (o : ProbeOutcome) (h : EventsInv s)
    (hc : ∀ c ∈ cs, c.1 < s.params.nports ∧ c.2 ∈ s.params.bauds) : EventsInv (probeAll cs o s).2 := by
  refine (probeAll_induct (R := fun u v => u.params = s.params ∧ EventsInv u → v.params = s.params ∧ EventsInv v)
    (fun _ h => h) (fun _ _ _ h1 h2 h => h2 (h1 h)) cs (fun c hm u hu => ?_) (fun _ _ _ hu => hu) o s ⟨rfl, h⟩).2
  obtain ⟨hq, hi⟩ := hu
  obtain ⟨hp, hb⟩ := hc c hm
  rw [← hq] at hp hb
  refine ⟨?_, eventsInv_probeCandidate hi hp hb⟩
  rcases probeCandidate_cases c.1 c.2 u with e | ⟨_, _, -, -, e⟩ | ⟨_, _, _, _, _, -, -, -, -, -, e⟩ <;> rw [e] <;>
    exact hq

/-- The candidates of SEQ.PROBE on a port (45_session.md R238). -/
theorem mem_portCandidates {s : State} {p : Nat} {c : Nat × Nat} (h : c ∈ portCandidates s p) :
    c.1 = p ∧ c.2 ∈ s.params.bauds := by
  obtain ⟨b, hb, rfl⟩ := List.mem_map.1 h
  exact ⟨rfl, hb⟩

/-- The candidates of SEQ.DISCOVER (45_session.md R239). -/
theorem mem_allCandidates {s : State} {c : Nat × Nat} (h : c ∈ allCandidates s) :
    c.1 < s.params.nports ∧ c.2 ∈ s.params.bauds := by
  obtain ⟨p, hp, hc⟩ := List.mem_flatMap.1 h
  obtain ⟨rfl, hb⟩ := mem_portCandidates hc
  exact ⟨List.mem_range.1 hp, hb⟩

/-- SEQ.PROBE on a candidate port (45_session.md R238). -/
theorem eventsInv_probePort {s : State} {p : Nat} (h : EventsInv s) (hp : p < s.params.nports) :
    EventsInv (probePort p s).2 := by
  have hs : EventsInv (probeAll (portCandidates s p) .openFailed (startScan s)).2 := by
    refine eventsInv_probeAll .openFailed (s := startScan s) h fun c hc => ?_
    obtain ⟨rfl, hb⟩ := mem_portCandidates hc
    exact ⟨hp, hb⟩
  unfold probePort; dsimp only; split <;> exact hs

/-- SEQ.DISCOVER (45_session.md R239). -/
theorem eventsInv_discoverAll {s : State} (h : EventsInv s) : EventsInv (discoverAll s).2 := by
  have hs : EventsInv (probeAll (allCandidates s) .openFailed (startScan s)).2 :=
    eventsInv_probeAll .openFailed (s := startScan s) h fun _ => mem_allCandidates
  unfold discoverAll; dsimp only; split <;> exact hs

/-- The establishment of a session: an open at the session rate and the mode-set request (45_session.md R246). -/
theorem eventsInv_establishSession {s : State} (p : Nat) (h : EventsInv s) : EventsInv (establishSession p s).2 := by
  rcases establishSession_cases p s with ⟨-, e⟩ | ⟨hp, e⟩ | ⟨hp, r, x, v, l, -, e⟩ <;> rw [e]
  · exact h
  · exact eventsInv_append h rfl rfl (List.forall_mem_singleton.2 ⟨hp, .inr rfl⟩)
  · refine eventsInv_append h rfl rfl (List.forall_mem_append.2 ⟨List.forall_mem_cons.2 ⟨⟨hp, .inr rfl⟩, ?_⟩, ?_⟩)
    · exact requestEvents_legal (.inr ⟨s.addr, .inr rfl⟩) l
    · cases v
      · exact List.forall_mem_singleton.2 trivial
      · exact nofun

/-- Every command's body adds legal events only. -/
theorem eventsInv_bodyOf (i : Instr) {s : State} (h : EventsInv s) : EventsInv (bodyOf i s).2 := by
  cases i with
  | crcClr | crcByte | crcPack | lineClr | rspIdent | rspAck => exact h
  | linePut b => simp only [bodyOf, linePutState_eq]; exact h
  | frmVerify => obtain ⟨_, _, _, _, _, e⟩ := verifyStep_frame s; simp only [bodyOf, e]; exact h
  | frmTokenize => obtain ⟨_, _, _, _, _, _, e⟩ := tokenizeStep_frame s; simp only [bodyOf, e]; exact h
  | frmProcess => exact eventsInv_processStep h
  | lineRead => exact guarded_keeps h fun _ => eventsInv_readIntoLine h
  | txProbe => exact guarded_keeps h fun _ => eventsInv_log h (.inl rfl)
  | txSettings => exact guarded_keeps h fun _ => eventsInv_log h (.inr ⟨s.addr, .inl rfl⟩)
  | txSetmode => exact guarded_keeps h fun _ => eventsInv_log h (.inr ⟨s.addr, .inr rfl⟩)
  | rspAddr =>
    refine guarded_keeps h fun _ => ?_
    unfold takeAddress; split <;> exact h
  | xptOpen p =>
    refine guarded_keeps h fun _ => ?_
    split
    · next hp => exact eventsInv_xptOpen h (of_decide_eq_true hp) (.inr rfl)
    · exact h
  | xptSettle | xptFlush =>
    exact guarded_keeps h fun _ => eventsInv_append h rfl rfl (List.forall_mem_singleton.2 trivial)
  | xptClose => exact guarded_keeps h fun _ => eventsInv_closeIfOpen h
  | addrSet => exact guarded_keeps h fun _ => h
  | seqProbe p =>
    refine guarded_keeps h fun _ => ?_
    split
    · next hp => exact eventsInv_probePort h (of_decide_eq_true hp)
    · exact h
  | seqDiscover => exact guarded_keeps h fun _ => eventsInv_discoverAll h
  | seqEstablish p => exact guarded_keeps h fun _ => eventsInv_establishSession _ h
  | seqCycle =>
    refine guarded_keeps h fun _ => ?_
    unfold cycleStep
    split
    · exact eventsInv_readIntoLine h
    · exact eventsInv_processStep (eventsInv_readIntoLine h)
  | seqShutdown => exact eventsInv_closeIfOpen h

/-- Settles O55: each command adds legal events only, and a reset empties H. -/
theorem eventsStayLegal : Obligations.EventsStayLegal :=
  fun _ _ h hst => step_keeps (P := EventsInv) (fun _ _ h => h) (fun _ h => h) (fun _ _ h => h) (fun _ _ _ => nofun)
    (fun i _ h => eventsInv_bodyOf i h) hst h

/-! ## The local commands -/

/-- The transport and the session registers are as before (20_memory.md R75): each clause proves itself of an update of
other fields. -/
structure SameSession (s t : State) : Prop where
  xpt : t.xpt = s.xpt := by rfl
  sess : t.sess = s.sess := by rfl
  opn : t.status.opn = s.status.opn := by rfl
  port : t.port = s.port := by rfl
  fport : t.fport = s.fport := by rfl
  addr : t.addr = s.addr := by rfl
  addrv : t.status.addrv = s.status.addrv := by rfl
  auto : t.status.auto = s.status.auto := by rfl
  fatal : t.status.fatal = s.status.fatal := by rfl

/-- The body of a local command leaves the session alone, and H but for the record of an FRM.PROCESS that ends with OK
(20_memory.md R75, 43_frame.md R183). -/
theorem bodyOf_of_local {i : Instr} (s : State) (h : localCommand i = true) :
    SameSession s (bodyOf i s).2 ∧ ((bodyOf i s).2.hist = s.hist ∨ (i = .frmProcess ∧ (bodyOf i s).1 = .ok ∧
      (bodyOf i s).2.hist = s.hist ++ [.emit (tokenRecord (bodyOf i s).2)])) := by
  cases i with
  | crcClr | crcByte | crcPack | lineClr | rspIdent | rspAck => exact ⟨{}, .inl rfl⟩
  | linePut b => rw [bodyOf, linePutState_eq]; exact ⟨{}, .inl rfl⟩
  | frmVerify => obtain ⟨_, _, _, _, _, e⟩ := verifyStep_frame s; rw [bodyOf, e]; exact ⟨{}, .inl rfl⟩
  | frmTokenize => obtain ⟨_, _, _, _, _, _, e⟩ := tokenizeStep_frame s; rw [bodyOf, e]; exact ⟨{}, .inl rfl⟩
  | frmProcess =>
    obtain ⟨_, _, _, _, _, _, _, _, _, _, _, es, e, hes⟩ := processStep_frame s
    have hh : (processStep s).2.hist = s.hist ++ es := congrArg State.hist e
    refine ⟨by simp only [bodyOf, e]; exact {}, ?_⟩
    split at hes
    · next hok => exact .inr ⟨rfl, hok, hes ▸ hh⟩
    · exact .inl (by rw [hes, List.append_nil] at hh; exact hh)
  | _ => exact absurd h Bool.false_ne_true

/-- Settles O48: what a local command's body leaves, and `finish` writes RES and BUSY alone. -/
theorem localCommandsStayInside : Obligations.LocalCommandsStayInside := by
  intro i s h
  obtain ⟨hs, hh⟩ := bodyOf_of_local s h
  exact ⟨_, exec_eq i s, hs.xpt, hs.sess, hs.opn, hs.port, hs.fport, hs.addr, hs.addrv, hs.auto, hs.fatal, hh⟩

/-! ## What the host sees of a running command -/

/-- Setting BUSY sets bit 14 of STATUS and no other (10_state.md R23, R33). -/
theorem accept_status_word (s : State) : (accept s).status.word = s.status.word ||| 0x4000 := by
  refine BitVec.eq_of_getLsbD_eq fun i hi => ?_
  rw [BitVec.getLsbD_or, getLsbD_status_word _ hi, getLsbD_status_word _ hi]
  interval_cases i <;> simp

/-- The transient states of SESS are SCANNING and ESTABLISHING (10_state.md R35). -/
theorem transientSess_cases {i : Instr} {s : State} {q : Sess} (h : transientSess i s = some q) :
    q = .scanning ∨ q = .establishing := by
  cases i with
  | seqProbe p => obtain ⟨-, e⟩ := Option.ite_none_right_eq_some.1 h; exact .inl (Option.some.inj e).symm
  | seqDiscover => obtain ⟨-, e⟩ := Option.ite_none_right_eq_some.1 h; exact .inl (Option.some.inj e).symm
  | seqEstablish p => obtain ⟨-, e⟩ := Option.ite_none_right_eq_some.1 h; exact .inr (Option.some.inj e).symm
  | _ => cases h

/-- A view of a running command is the accepted state with SESS as it was or in a transient state (20_memory.md R74). -/
theorem mem_busyViews {i : Instr} {s v : State} (h : v ∈ busyViews i s) :
    ∃ q, (q = s.sess ∨ q = .scanning ∨ q = .establishing) ∧ v = setSess q (accept s) := by
  rcases List.mem_cons.1 h with rfl | h
  · exact ⟨s.sess, .inl rfl, rfl⟩
  · obtain ⟨q, hq, rfl⟩ := List.mem_map.1 h
    exact ⟨q, .inr (transientSess_cases (Option.mem_toList.1 hq)), rfl⟩

/-- Acceptance and SESS are read in STATUS and SESS alone (10_state.md R20, R22). -/
theorem rdReg_setSess_accept {n : Byte} (h0 : n ≠ 0) (h1 : n ≠ 1) (q : Sess) (s : State) :
    rdReg n (setSess q (accept s)) = rdReg n s := by
  unfold rdReg
  split
  case h_1 h => exact absurd (BitVec.eq_of_toNat_eq h) h0
  case h_2 h => exact absurd (BitVec.eq_of_toNat_eq h) h1
  all_goals rfl

/-- Settles O59: a view differs from the state before the command in BUSY and SESS alone. -/
theorem runningCommandShowsOnlyBusyAndSess : Obligations.RunningCommandShowsOnlyBusyAndSess := by
  intro i s v h
  obtain ⟨q, hq, rfl⟩ := mem_busyViews h
  exact ⟨rfl, accept_status_word s, fun n h0 h1 => rdReg_setSess_accept h0 h1 q s, fun _ => rfl, fun _ => rfl, hq⟩

end Sys2Proof.Proofs

/-! PROOFS. The statements of 30_encoding.md: decoder and encoder are inverse (R90, R92), the decoder rejects by name
(R94, R95), a step runs the decoded command (R91), the TX commands write their frame (R100), and SEQ.PROBE searches the
port its operand names (R93). -/

namespace Sys2Proof.Proofs

open Sys2Proof.Machine

/-! ## Decoder and encoder -/

/-- A word made of an opcode and an operand decodes by these two fields (R90). -/
theorem decode_append (op imm : Byte) : decode (op ++ imm) = decodeFields op imm := by
  rw [decode, fieldOp_append, fieldImm_append]

/-- The opcode map gives each command back from its own opcode and operand (R92). -/
theorem decodeFields_opcode_operand (i : Instr) : decodeFields (opcode i) (operand i) = .command i := by
  cases i <;> rfl

/-- A command's word decodes to the command (R92). -/
theorem decode_encode (i : Instr) : decode (encode i) = .command i := by
  rw [encode, decode_append, decodeFields_opcode_operand]

/-- The two bytes of a word, opcode first, decode to what the word decodes to, with nothing left over (20_memory.md
R65). -/
theorem decodeBytes_bytesOfWord (w : Word) : decodeBytes (bytesOfWord w) = some (decode w, []) := by
  rw [bytesOfWord, decodeBytes, wordOfBytes_fields]

/-- Settles O1: the decoder reads back the two fields that the encoder wrote. -/
theorem decodeOfEncodeGivesTheCommand : Obligations.DecodeOfEncodeGivesTheCommand :=
  fun i _ => ⟨decode_encode i, by rw [decodeBytes_bytesOfWord, decode_encode]⟩

/-- What a command without operand is decoded from, with the command (R94). -/
theorem eq_of_bare_eq_command {i j : Instr} {op imm : Byte} (h : bare i op imm = .command j) : i = j ∧ imm = 0 := by
  obtain rfl := bare_eq_command h
  rw [bare, if_pos rfl] at h
  exact ⟨Decoded.command.inj h, rfl⟩

/-- The opcode map decodes to a command only that command's own opcode and operand (R92). -/
theorem fields_of_decodeFields_eq_command {op imm : Byte} {i : Instr} (h : decodeFields op imm = .command i) :
    opcode i = op ∧ operand i = imm := by
  unfold decodeFields at h
  split at h
  case h_2 | h_5 | h_16 | h_20 | h_21 | h_23 => cases h; exact ⟨rfl, rfl⟩
  case h_26 => cases h
  all_goals obtain ⟨rfl, rfl⟩ := eq_of_bare_eq_command h; exact ⟨rfl, rfl⟩

/-- Settles O2: the command's opcode and operand are the word's two fields, and these are the whole word. -/
theorem encodeOfDecodeGivesTheWord : Obligations.EncodeOfDecodeGivesTheWord := by
  intro w i h
  obtain ⟨ho, hi⟩ := fields_of_decodeFields_eq_command h
  rw [encode, ho, hi, fieldOp_append_fieldImm]

/-! ## The words that are no command -/

/-- An unassigned opcode is rejected by name, whatever the operand (R95). -/
theorem decodeFields_of_unassigned {op : Byte} (h : opUnassigned op = true) (imm : Byte) :
    decodeFields op imm = .illegal (.unassignedOpcode op) := by
  unfold decodeFields
  split
  case h_26 => rfl
  all_goals exact absurd h (by decide)

/-- An opcode outside the ranges of R95 is that of a command with operand 0x00 (R92). -/
theorem decodeFields_zero_of_assigned {op : Byte} (h : opUnassigned op = false) :
    ∃ i, decodeFields op 0 = .command i := by
  have hs : ∀ op, opUnassigned op = false → (decodeFields op 0).instr?.isSome = true := by decide
  cases hd : decodeFields op 0 with
  | command i => exact ⟨i, rfl⟩
  | illegal e => exact absurd (hs op h) (by rw [hd]; exact Bool.false_ne_true)

/-- A command that takes no operand is decoded from its opcode with operand 0x00 only (R94). -/
theorem decodeFields_opcode_bare {i : Instr} (h : opTakesOperand (opcode i) = false) (imm : Byte) :
    decodeFields (opcode i) imm = bare i (opcode i) imm := by
  cases i
  case crcByte | linePut | xptOpen | addrSet | seqProbe | seqEstablish => cases h
  all_goals rfl

/-- A nonzero operand of a command that takes none is rejected by name (R94). -/
theorem decodeFields_of_operandNotZero {op imm : Byte} (ha : opUnassigned op = false) (ht : opTakesOperand op = false)
    (hi : imm ≠ 0) : decodeFields op imm = .illegal (.operandNotZero op imm) := by
  obtain ⟨i, hd⟩ := decodeFields_zero_of_assigned ha
  obtain ⟨rfl, -⟩ := fields_of_decodeFields_eq_command hd
  rw [decodeFields_opcode_bare ht, bare, if_neg hi]

/-- An opcode that takes an operand is a command with every operand (R93). -/
theorem decodeFields_of_takesOperand {op : Byte} (h : opTakesOperand op = true) (imm : Byte) :
    ∃ i, decodeFields op imm = .command i := by
  simp only [opTakesOperand, Bool.or_eq_true, beq_iff_eq] at h
  obtain ((((rfl | rfl) | rfl) | rfl) | rfl) | rfl := h <;> exact ⟨_, rfl⟩

/-- A legal word is a command (R94, R95). -/
theorem decode_of_wordOk {w : Word} (h : wordOk w = true) : ∃ i, decode w = .command i := by
  simp only [wordOk, Bool.and_eq_true, Bool.not_eq_true', Bool.or_eq_true, beq_iff_eq] at h
  obtain ⟨ha, ht | hz⟩ := h
  · exact decodeFields_of_takesOperand ht _
  · rw [decode, show fieldImm w = 0 from hz]
    exact decodeFields_zero_of_assigned ha

/-- Settles O3: the ranges of R95 and the operand rule of R94 against the opcode map. -/
theorem decoderIsTotalAndRejectsByName : Obligations.DecoderIsTotalAndRejectsByName := by
  intro w
  refine ⟨⟨decode_of_wordOk, fun ⟨i, hi⟩ => ?_⟩, fun hu => decodeFields_of_unassigned hu _,
    decodeFields_of_operandNotZero⟩
  by_contra hw
  obtain ⟨e, he⟩ := decode_of_not_wordOk (Bool.eq_false_iff.2 hw)
  rw [hi] at he
  cases he

/-- Settles O4: five encodings, two unassigned opcodes and one operand where none is taken. -/
theorem sampleWordsDecode : Obligations.SampleWordsDecode :=
  ⟨decode_encode (.crcByte 0x30), decode_encode .lineClr, decode_encode .frmProcess, decode_encode .rspAck,
    decode_encode (.seqEstablish 1), decodeFields_of_unassigned (by decide) _,
    decodeFields_of_unassigned (by decide) _, decodeFields_of_operandNotZero (by decide) (by decide) (by decide)⟩

/-! ## The step of a legal word -/

/-- A word presented at BUSY = 0 that decodes to a command runs it (R91). -/
theorem step_of_command {s : State} {w : Word} {i : Instr} (hf : fetch s = present w s)
    (hb : s.status.busy = false) (hd : decode w = .command i) : step s = exec i (takeInput s) := by
  rw [step, hf, present, if_neg (by rw [hb]; exact Bool.false_ne_true), hd]

/-- The input taken, written out (R91). -/
theorem takeInput_of_host {s : State} {x : HostInput} {rest : List HostInput} (h : s.host = x :: rest) :
    takeInput s = { s with host := rest, status := { s.status with busy := true } } := by
  rw [takeInput, h]; rfl

/-- Settles O5: the word and its two bytes are presented alike, and decode once. -/
theorem stepRunsTheDecodedCommand : Obligations.StepRunsTheDecodedCommand := by
  intro s rest i _ hb
  refine ⟨fun w hh hd => ?_, fun a b hh hd => ?_⟩
  · rw [step_of_command (fetch_word hh) hb hd, takeInput_of_host hh]
  · rw [step_of_command (fetch_wordBytes hh) hb hd, takeInput_of_host hh]

/-! ## The TX commands -/

/-- TX.SETTINGS and TX.SETMODE are refused outside IDLE (44_wire.md R202). -/
theorem txRefusal_badState {s : State} (h : s.sess ≠ .idle) : txRefusal s = some .badState := by
  rw [txRefusal, if_pos h]

/-- TX.SETTINGS and TX.SETMODE are refused with no port open (44_wire.md R202). -/
theorem txRefusal_notOpen {s : State} (hq : s.sess = .idle) (ho : s.status.opn = false) :
    txRefusal s = some .notOpen := by
  rw [txRefusal, if_neg (not_not_intro hq), if_pos ho]

/-- TX.SETTINGS and TX.SETMODE are refused without an address (44_wire.md R202). -/
theorem txRefusal_noAddr {s : State} (hq : s.sess = .idle) (ho : s.status.opn = true) (ha : s.status.addrv = false) :
    txRefusal s = some .noAddr := by
  rw [txRefusal, if_neg (not_not_intro hq), if_neg (by rw [ho]; exact Bool.noConfusion), if_pos ha]

/-- TX.PROBE where it runs (44_wire.md R203). -/
theorem exec_txProbe {s : State} (hq : s.sess = .idle) (ho : s.status.opn = true) :
    exec .txProbe s = .next (finished .ok (xptWrite probeFrame s)) :=
  exec_of_allowed (i := .txProbe) (b := (.ok, xptWrite probeFrame s)) rfl (portRefusal_eq_none.2 ⟨hq, ho⟩)

/-- TX.SETTINGS where it runs (44_wire.md R204). -/
theorem exec_txSettings {s : State} (h : txRefusal s = none) :
    exec .txSettings s = .next (finished .ok (xptWrite (settingsFrame s.addr) s)) :=
  exec_of_allowed (i := .txSettings) (b := (.ok, xptWrite (settingsFrame s.addr) s)) rfl h

/-- TX.SETMODE where it runs (44_wire.md R205). -/
theorem exec_txSetmode {s : State} (h : txRefusal s = none) :
    exec .txSetmode s = .next (finished .ok (xptWrite (setmodeFrame s.addr) s)) :=
  exec_of_allowed (i := .txSetmode) (b := (.ok, xptWrite (setmodeFrame s.addr) s)) rfl h

/-- Settles O29: each TX command is refused by its first failing check or writes its frame. -/
theorem txCommandsWriteTheirFrame : Obligations.TxCommandsWriteTheirFrame := by
  intro s
  refine ⟨fun hq => ?_, fun hq ho => ?_, fun hq ho => ⟨exec_txProbe hq ho, fun ha => ?_, fun ha => ?_⟩⟩
  · have ht := txRefusal_badState hq
    exact ⟨exec_of_refused rfl (portRefusal_badState hq), exec_of_refused rfl ht, exec_of_refused rfl ht⟩
  · have ht := txRefusal_notOpen hq ho
    exact ⟨exec_of_refused rfl (portRefusal_notOpen hq ho), exec_of_refused rfl ht, exec_of_refused rfl ht⟩
  · have ht := txRefusal_noAddr hq ho ha
    exact ⟨exec_of_refused rfl ht, exec_of_refused rfl ht⟩
  · have ht := txRefusal_eq_none.2 ⟨hq, ho, ha⟩
    exact ⟨exec_txSettings ht, exec_txSetmode ht⟩

/-! ## SEQ.PROBE -/

/-- SEQ.PROBE in IDLE with no port open, on a port that is a candidate (45_session.md R238). -/
theorem exec_seqProbe {s : State} {p : Byte} (hq : s.sess = .idle) (ho : s.status.opn = false)
    (hp : p.toNat < s.params.nports) :
    exec (.seqProbe p) s = .next (finished (probePort p.toNat s).1 (probePort p.toNat s).2) := by
  rw [exec_of_allowed rfl (openRefusal_eq_none.2 ⟨hq, ho⟩), portLegal, decide_eq_true hp, if_pos rfl]

/-- SEQ.PROBE in IDLE with no port open, on an index that is no port (R93). -/
theorem exec_seqProbe_noPort {s : State} {p : Byte} (hq : s.sess = .idle) (ho : s.status.opn = false)
    (hp : s.params.nports ≤ p.toNat) : exec (.seqProbe p) s = .next (finished .openFailed s) := by
  rw [exec_of_allowed rfl (openRefusal_eq_none.2 ⟨hq, ho⟩), portLegal, decide_eq_false (by omega),
    if_neg Bool.false_ne_true]

/-- A search of SEQ.PROBE that finds the device ends with OK (45_session.md R238). -/
theorem probePort_of_found {p : Nat} {s t : State}
    (h : probeAll (portCandidates s p) .openFailed (startScan s) = (.found, t)) : probePort p s = (.ok, t) := by
  rw [probePort, h]; rfl

/-- A search of SEQ.PROBE that finds none ends in IDLE with its last candidate's code (45_session.md R238). -/
theorem probePort_of_not_found {p : Nat} {s t : State} {o : ProbeOutcome} (ho : o ≠ .found)
    (h : probeAll (portCandidates s p) .openFailed (startScan s) = (o, t)) :
    probePort p s = (o.code, setSess .idle t) := by
  rw [probePort, h]; simp only [if_neg ho]

/-- A cut in the candidates of SEQ.PROBE is a cut in the baud rates (45_session.md R238). -/
theorem bauds_of_portCandidates {s : State} {p : Nat} {tried rest : List (Nat × Nat)} {c : Nat × Nat}
    (h : portCandidates s p = tried ++ c :: rest) :
    ∃ bs b bs', s.params.bauds = bs ++ b :: bs' ∧ tried = bs.map (fun b => (p, b)) ∧ c = (p, b) ∧
      rest = bs'.map (fun b => (p, b)) := by
  obtain ⟨bs, tl, hb, rfl, htl⟩ := List.map_eq_append_iff.1 h
  obtain ⟨b, bs', rfl, rfl, rfl⟩ := List.map_eq_cons_iff.1 htl
  exact ⟨bs, b, bs', hb, rfl, rfl, rfl⟩

/-- Settles O34: refused by its checks, or a search over the port at every baud rate, which ends at the first candidate
found or with the last one's failure. -/
theorem seqProbeSearchesItsPort : Obligations.SeqProbeSearchesItsPort := by
  intro s p
  refine ⟨fun h => exec_of_refused rfl (openRefusal_badState h), exec_seqProbe_noPort, fun hq ho hp => ?_⟩
  rw [exec_seqProbe hq ho hp]
  rcases probeAll_ends (portCandidates s p.toNat) .openFailed (startScan s) nofun ho rfl with
    ⟨n, b, a, r1, r2, x, tried, before, rest, t, -, -, h1, ha, hi, hcs, hf, ⟨hpf, haf, hlf⟩, e, rfl⟩ |
    ⟨o, a, pt, l, es, x, tm, ov, vf, t, hn, hes, ⟨hpf, haf, hlf⟩, e, rfl⟩
  · obtain ⟨bs, b, bs', hb, rfl, ⟨⟩, rfl⟩ := bauds_of_portCandidates hcs
    rw [probePort_of_found e]
    refine ⟨_, before ++ foundExchange p.toNat b a r1 r2, rfl, rfl, rfl, ⟨rfl, rfl, rfl, rfl⟩,
      ⟨rfl, rfl, rfl, rfl, rfl, rfl⟩, ⟨rfl, rfl⟩, rfl, rfl, hpf, haf, hlf, .inl ?_⟩
    refine ⟨rfl, rfl, portByte_toNat p, portByte_toNat p, rfl, b, r1, r2, before, bs'.map fun b => (p.toNat, b), rfl,
      h1, ha, ⟨rfl, rfl, endsInLf_eq r2, rfl⟩, hi, ?_, bs, bs', hb, hf⟩
    rw [openedCandidates_append, openedCandidates_of_failing hf]
    simp [hb, foundExchange, openedCandidates]
  · rw [probePort_of_not_found hn e]
    refine ⟨_, es, rfl, rfl, rfl, ⟨rfl, rfl, rfl, rfl⟩, ⟨rfl, rfl, rfl, rfl, rfl, rfl⟩, ⟨rfl, rfl⟩, rfl, rfl, hpf,
      haf, hlf, .inr ⟨rfl, rfl, rfl, ?_⟩⟩
    rcases hes with ⟨hcs, rfl, rfl⟩ | ⟨tried, c, before, last, hcs, rfl, hf, hl⟩
    · have hb : s.params.bauds = [] := List.map_eq_nil_iff.1 hcs
      exact ⟨by rw [hb]; rfl, .inl ⟨hb, rfl, rfl⟩⟩
    · refine ⟨(openedCandidates_of_failing (failingExchanges_concat hf hl)).trans hcs.symm, .inr ?_⟩
      obtain ⟨bs, b, bs', hb, rfl, rfl, hnil⟩ := bauds_of_portCandidates hcs
      obtain rfl := List.map_eq_nil_iff.1 hnil.symm
      exact ⟨bs, b, before, last, hb, rfl, hf, hl⟩

end Sys2Proof.Proofs


/-! PROOFS. The statements of 41_crc.md: the CRC step loses nothing (R120), the packing has an inverse and a range
(R122, R123), what the CRC commands leave, one by one (R124 to R126) and as CRC.COMPUTE (R127), and the check values
(R128). -/

namespace Sys2Proof.Proofs

open Sys2Proof.Machine Sys2Proof.Claims

/-! ## The CRC step is injective -/

/-- Bit 15 after a shift tells whether the polynomial was folded in: 0xA001 has bit 15 set and the shift fills it with 0
(R120). -/
theorem crcShift_bit15 (a : Word) : (crcShift a).getLsbD 15 = a.getLsbD 0 := by
  unfold crcShift
  cases a.getLsbD 0 <;> simp

/-- One shift loses nothing: bit 15 of the result gives back the bit shifted out, and with it the other fifteen
(R120). -/
theorem crcShift_injective : Function.Injective crcShift := by
  intro a a' h
  have hlow : a.getLsbD 0 = a'.getLsbD 0 := by rw [← crcShift_bit15, h, crcShift_bit15]
  have hhigh : a >>> 1 = a' >>> 1 := by
    unfold crcShift at h
    rw [hlow] at h
    split at h
    · exact BitVec.xor_left_inj _ |>.1 h
    · exact h
  refine BitVec.eq_of_getLsbD_eq fun i _ => ?_
  cases i with
  | zero => exact hlow
  | succ i => simpa [Nat.add_comm] using congrArg (·.getLsbD i) hhigh

/-- Shifts in a row lose nothing (R120). -/
theorem crcShifts_injective : ∀ n, Function.Injective (crcShifts n)
  | 0 => fun _ _ h => h
  | n + 1 => (crcShifts_injective n).comp crcShift_injective

/-- Settles O11: a byte is folded in by an XOR, which can be undone in either argument, and the shifts lose nothing. -/
theorem crcStepIsInjectiveInEachArgument : Obligations.CrcStepIsInjectiveInEachArgument := by
  refine ⟨fun a a' b h => ?_, fun a b b' h => ?_⟩
  · exact (BitVec.xor_left_inj _).1 (crcShifts_injective 8 h)
  · have hw : b.setWidth 16 = b'.setWidth 16 := (BitVec.xor_right_inj _).1 (crcShifts_injective 8 h)
    have hb : (b.setWidth 16).setWidth 8 = (b'.setWidth 16).setWidth 8 := congrArg (·.setWidth 8) hw
    simpa using hb

/-! ## The packing -/

/-- The mask 0x0F gives back the four bits that were packed (R123). -/
theorem packed4_and_mask : ∀ x : BitVec 4, (0x40#8 ||| x.setWidth 8) &&& 0x0F#8 = x.setWidth 8 := by decide

/-- The mask 0x3F gives back the six bits that were packed (R123). -/
theorem packed6_and_mask : ∀ x : BitVec 6, (0x40#8 ||| x.setWidth 8) &&& 0x3F#8 = x.setWidth 8 := by decide

/-- A packed group is 0x7F exactly when all its six bits are set (R123). -/
theorem packed6_eq_0x7F_iff : ∀ x : BitVec 6, 0x40#8 ||| x.setWidth 8 = 0x7F ↔ x = 0x3F := by decide

/-- The three groups of a CRC side by side are the CRC: each of its bits lies in one group (R122). -/
theorem groups_reassemble (c : Word) :
    ((c.extractLsb' 12 4).setWidth 8).setWidth 16 <<< 12 ||| ((c.extractLsb' 6 6).setWidth 8).setWidth 16 <<< 6 |||
      ((c.extractLsb' 0 6).setWidth 8).setWidth 16 = c := by
  refine BitVec.eq_of_getLsbD_eq fun i hi => ?_
  simp only [BitVec.getLsbD_or, BitVec.getLsbD_shiftLeft, BitVec.getLsbD_setWidth, BitVec.getLsbD_extractLsb']
  interval_cases i <;> simp

/-- The stated inverse inverts the packing (R123). -/
theorem unpack_pack (c : Word) : unpack (pack0 c) (pack1 c) (pack2 c) = c := by
  rw [unpack, pack0, pack1, pack2, packed4_and_mask, packed6_and_mask, packed6_and_mask, groups_reassemble]

/-- Two CRCs with the same packing are the same (R123). -/
theorem pack_injective : Function.Injective pack := by
  intro c c' h
  simp only [pack, List.cons.injEq, and_true] at h
  obtain ⟨h0, h1, h2⟩ := h
  rw [← unpack_pack c, h0, h1, h2, unpack_pack]

/-- Every checksum byte is at least 0x40 (R123). -/
theorem le_of_mem_pack {c : Word} {b : Byte} (h : b ∈ pack c) : 0x40 ≤ b.toNat := by
  obtain ⟨h0, h1, h2⟩ := pack_range c
  simp only [pack, List.mem_cons, List.not_mem_nil, or_false] at h
  obtain rfl | rfl | rfl := h
  · exact h0.1
  · exact h1.1
  · exact h2.1

/-- Settles O12: the excluded bytes lie below the range, and the masks of the inverse give back the groups packed. -/
theorem packHasItsRangeAndInverse : Obligations.PackHasItsRangeAndInverse := by
  intro c
  obtain ⟨h0, h1, h2⟩ := pack_range c
  refine ⟨h0, h1, h2, fun b hb => ?_, unpack_pack c, fun c' h => pack_injective h,
    or_congr (packed6_eq_0x7F_iff _) (packed6_eq_0x7F_iff _)⟩
  have hge := le_of_mem_pack hb
  refine ⟨?_, ?_, ?_, ?_, ?_⟩ <;> rintro rfl <;> exact absurd hge (by decide)

/-! ## What the commands write -/

/-- Shifts in a row as a loop on numbers, one turn per entry of the list (R120). -/
theorem toNat_crcShifts (l : List Nat) (a : Word) :
    (crcShifts l.length a).toNat =
      l.foldl (fun n _ => if n % 2 = 1 then (n / 2) ^^^ 0xA001 else n / 2) a.toNat := by
  induction l generalizing a with
  | nil => rfl
  | cons _ l ih => rw [List.length_cons, crcShifts, ih, toNat_crcShift, List.foldl_cons]

/-- The CRC step is the loop of R120 over natural numbers. -/
theorem crcStep_eq_crcLoop (a : Word) (b : Byte) : crcStep a b = crcLoop a b := by
  have hx : (a ^^^ b.setWidth 16).toNat = a.toNat ^^^ b.toNat := by
    rw [BitVec.toNat_xor, BitVec.toNat_setWidth_of_le (by decide)]
  rw [crcLoop, ← hx, ← toNat_crcShifts, BitVec.ofNat_toNat, BitVec.setWidth_eq]
  rfl

/-- byte0 by a shift alone: nothing stands above the four bits (R122). -/
theorem pack0_eq_shift (c : Word) : pack0 c = 0x40 ||| (c >>> 12).setWidth 8 := by
  have h : (c.extractLsb' 12 4).setWidth 8 = (c >>> 12).setWidth 8 := by
    apply BitVec.eq_of_toNat_eq
    simp only [BitVec.toNat_setWidth, BitVec.extractLsb'_toNat, BitVec.toNat_ushiftRight, Nat.shiftRight_eq_div_pow]
    omega
  rw [pack0, h]; rfl

/-- A group of six bits by shift and mask (R122). -/
theorem group6_eq_shift_mask (c : Word) (k : Nat) :
    (c.extractLsb' k 6).setWidth 8 = ((c >>> k) &&& 0x3F).setWidth 8 := by
  apply BitVec.eq_of_toNat_eq
  rw [BitVec.toNat_setWidth, BitVec.toNat_setWidth, BitVec.extractLsb'_toNat, BitVec.toNat_and,
    BitVec.toNat_ushiftRight]
  exact congrArg (· % 2 ^ 8) (Nat.and_two_pow_sub_one_eq_mod _ 6).symm

/-- byte1 by shift and mask (R122). -/
theorem pack1_eq_shift_mask (c : Word) : pack1 c = 0x40 ||| ((c >>> 6) &&& 0x3F).setWidth 8 := by
  rw [pack1, group6_eq_shift_mask]; rfl

/-- byte2 by a mask alone (R122). -/
theorem pack2_eq_mask (c : Word) : pack2 c = 0x40 ||| (c &&& 0x3F).setWidth 8 := by
  rw [pack2, group6_eq_shift_mask, BitVec.ushiftRight_zero]; rfl

/-- Settles O13: the model's step is the loop, and its bit fields are the shifts and masks. -/
theorem crcCommandsGiveTheirResult : Obligations.CrcCommandsGiveTheirResult := by
  intro s b
  refine ⟨rfl, ?_, ?_⟩
  · rw [← crcStep_eq_crcLoop]; rfl
  · rw [← pack0_eq_shift, ← pack1_eq_shift_mask, ← pack2_eq_mask]; rfl

/-! ## CRC.COMPUTE word by word -/

/-- The first of the words issued is taken and its command runs with BUSY set (30_encoding.md R91). -/
theorem step_issue_cons {s : State} (i : Instr) (is : List Instr) (hb : s.status.busy = false) :
    step (issue (i :: is) s) = exec i (accept (issue is s)) :=
  step_of_command (fetch_word rfl) hb (decode_encode i)

/-- A run goes on from the state its first step answers. -/
theorem run_succ_of_next {M : Host.Core} {s t : M.State} (k : Nat) (h : M.step s = .next t) :
    M.run (k + 1) s = M.run k t := by
  rw [Host.Core.run, h]

/-- A run of issued words goes on from where the first command ended (30_encoding.md R91). -/
theorem run_issue_cons {s t : State} {i : Instr} {is : List Instr} (k : Nat) (hb : s.status.busy = false)
    (hx : exec i (accept (issue is s)) = .next (issue is t)) :
    Host.Core.run Sys2Proof.core (k + 1) (issue (i :: is) s) = Host.Core.run Sys2Proof.core k (issue is t) :=
  run_succ_of_next k ((step_issue_cons i is hb).trans hx)

/-- The words of CRC.STR fold their bytes into ACC in order (R125, 30_encoding.md R99). -/
theorem run_issue_crcStr (p : Bytes) (is : List Instr) (k : Nat) (s : State) :
    Host.Core.run Sys2Proof.core (p.length + k) (issue (crcStr p ++ is) (finished .ok s)) =
      Host.Core.run Sys2Proof.core k (issue is (finished .ok { s with acc := p.foldl crcStep s.acc })) := by
  induction p generalizing s with
  | nil => rw [List.length_nil, Nat.zero_add]; rfl
  | cons b p ih =>
    rw [List.length_cons, Nat.add_right_comm]
    exact (run_issue_cons (t := finished .ok { s with acc := crcStep s.acc b }) _ rfl rfl).trans (ih _)

/-- Settles O14: one word clears ACC, each byte's word folds it in, and the last word packs. -/
theorem crcComputeLeavesTheChecksum : Obligations.CrcComputeLeavesTheChecksum := by
  intro s p hb
  calc Host.Core.run Sys2Proof.core (p.length + 2) (issue (crcCompute p) s)
    _ = Host.Core.run Sys2Proof.core (p.length + 1)
          (issue (crcStr p ++ [.crcPack]) (finished .ok { s with acc := 0x0000 })) := run_issue_cons _ hb rfl
    _ = Host.Core.run Sys2Proof.core 1 (issue [.crcPack] (finished .ok { s with acc := crc16 p })) :=
          run_issue_crcStr p [.crcPack] 1 _
    _ = Host.Core.run Sys2Proof.core 0 (issue [] (finished .ok (setCrc (crc16 p) s))) := run_issue_cons 0 rfl rfl
    _ = .next (finished .ok (setCrc (crc16 p) s)) := rfl
    _ = _ := by rw [finished, setCrc_status, ← hb]; rfl

/-! ## The check values -/

/-- Settles O15: the four byte sequences evaluated. -/
theorem crcCheckValues : Obligations.CrcCheckValues := by
  unfold Obligations.CrcCheckValues
  decide +kernel

end Sys2Proof.Proofs


/-! PROOFS. The statements of 42_line.md about the commands that write the line: LINE.CLR empties it (R152), and LINE.PUT
stores its byte or drops it (R150, R153). -/

namespace Sys2Proof.Proofs

open Sys2Proof.Machine

/-- A byte that has room is stored behind the others, and OVF keeps its value (R150). -/
theorem lbufAppend_of_room {s : State} (b : Byte) (h : s.lbuf.length < s.params.lbufMax) :
    lbufAppend b s = { s with lbuf := s.lbuf ++ [b] } :=
  if_pos h

/-- A byte beyond P_LBUF_MAX is dropped and sets OVF (R150). -/
theorem lbufAppend_of_full {s : State} (b : Byte) (h : s.params.lbufMax ≤ s.lbuf.length) :
    lbufAppend b s = { s with status := { s.status with ovf := true } } :=
  if_neg (Nat.not_lt.2 h)

/-- LINE.PUT ends with the line it leaves, and OVF there gives its code (R153). -/
theorem exec_linePut (b : Byte) (s : State) :
    exec (.linePut b) s = .next
      (finished (if (lbufAppend b s).status.ovf then .overflow else .ok) (lineFlags false (lbufAppend b s))) :=
  exec_eq (.linePut b) s

/-- Settles O16: LINE.CLR empties the line, and LINE.PUT's byte has room or not. -/
theorem lineClrAndPutGiveTheirResult : Obligations.LineClrAndPutGiveTheirResult := by
  refine fun s b => ⟨exec_eq .lineClr s, fun hroom => ?_, fun hfull => ?_⟩
  · rw [exec_linePut, lbufAppend_of_room b hroom]; rfl
  · rw [exec_linePut, lbufAppend_of_full b hfull]; rfl

end Sys2Proof.Proofs


/-! PROOFS. The statements of 43_frame.md: what stripping, trimming, splitting and lookup give (R170, R171, R173, R184),
what FRM.VERIFY, FRM.TOKENIZE and FRM.PROCESS do (R174 to R183), and the laws that join them to the checksum (R185 to
R187). -/

namespace Sys2Proof.Proofs

open Sys2Proof.Machine Sys2Proof.Claims

/-! ## Stripping and trimming -/

/-- Dropping from the end is characterised by what it drops and by the last byte it keeps. -/
theorem dropEndWhile_eq_iff {p : Byte → Bool} {s t : Bytes} :
    dropEndWhile p s = t ↔
      (∃ z, s = t ++ z ∧ ∀ b ∈ z, p b = true) ∧ ∀ c, t.getLast? = some c → p c = false := by
  constructor
  · rintro rfl
    exact ⟨dropEndWhile_split p s, fun _ => dropEndWhile_last⟩
  · rintro ⟨⟨z, rfl, hz⟩, hlast⟩
    rw [dropEndWhile_append t hz]
    cases h : t.getLast? with
    | none => rw [List.getLast?_eq_none_iff.1 h]; rfl
    | some c => exact dropEndWhile_of_last h (hlast c h)

/-- Settles O19: a byte is no terminator exactly when it is neither CR nor LF. -/
theorem stripTermRemovesTrailingTerminators : Obligations.StripTermRemovesTrailingTerminators := by
  intro s t
  have hlast : (∀ c, t.getLast? = some c → isTerm c = false) ↔
      t.getLast? ≠ some 0x0D ∧ t.getLast? ≠ some 0x0A := by
    cases t.getLast? <;> simp [isTerm]
  rw [stripTerm, dropEndWhile_eq_iff, hlast]
  simp only [isTerm_iff]

/-- The model's test for W is the set of R171. -/
theorem isWs_iff (b : Byte) : isWs b = true ↔ whitespace b := by
  simp [isWs, whitespace, or_assoc]

/-- The bytes of a line terminator are whitespace (R171). -/
theorem whitespace_of_term {b : Byte} (h : b = 0x0D ∨ b = 0x0A) : whitespace b := by
  rcases h with rfl | rfl <;> simp [whitespace]

/-- Whitespace lies below the checksum bytes. -/
theorem toNat_lt_of_whitespace {b : Byte} (h : whitespace b) : b.toNat < 0x40 := by
  rcases h with rfl | rfl | rfl | rfl | rfl | rfl <;> decide

/-- No checksum byte is whitespace (41_crc.md R123). -/
theorem not_whitespace_of_mem_pack {c : Word} {b : Byte} (h : b ∈ pack c) : ¬ whitespace b :=
  fun hw => absurd (toNat_lt_of_whitespace hw) (Nat.not_lt.2 (le_of_mem_pack h))

/-- The last byte of a packed checksum (41_crc.md R122). -/
theorem pack2_mem_pack (c : Word) : pack2 c ∈ pack c := by
  simp [pack]

/-- A byte outside W is no terminator (R170, R171). -/
theorem isTerm_of_not_whitespace {b : Byte} (h : ¬ whitespace b) : isTerm b = false :=
  Bool.eq_false_iff.2 fun ht => h (whitespace_of_term ((isTerm_iff b).1 ht))

/-- A byte that is neither CR nor LF is no terminator (R170). -/
theorem isTerm_of_ne {b : Byte} (hcr : b ≠ 0x0D) (hlf : b ≠ 0x0A) : isTerm b = false :=
  Bool.eq_false_iff.2 fun h => ((isTerm_iff b).1 h).elim hcr hlf

/-- What whitespace encloses is what trimming leaves, where it neither starts nor ends with whitespace (R171). -/
theorem trimWs_append {x t z : Bytes} (hx : ∀ b ∈ x, whitespace b) (hz : ∀ b ∈ z, whitespace b)
    (hhead : ∀ b, t.head? = some b → ¬ whitespace b) (hlast : ∀ b, t.getLast? = some b → ¬ whitespace b) :
    trimWs (x ++ t ++ z) = t := by
  simp only [← isWs_iff, Bool.not_eq_true] at hx hz hhead hlast
  have hend : dropEndWhile isWs (t ++ z) = t := dropEndWhile_eq_iff.2 ⟨⟨z, rfl, hz⟩, hlast⟩
  rw [trimWs, List.append_assoc, List.dropWhile_append_of_pos hx]
  cases t with
  | nil =>
    have hall : z.dropWhile isWs = [] := List.dropWhile_eq_nil_iff.2 hz
    rw [List.nil_append, hall]; rfl
  | cons a t =>
    have ha : isWs a ≠ true := Bool.eq_false_iff.1 (hhead a rfl)
    rw [List.cons_append, List.dropWhile_cons_of_neg ha, ← List.cons_append, hend]

/-- Trimming takes whitespace off both ends and leaves none there (R171). -/
theorem trimWs_split (s : Bytes) :
    (∃ x z, s = x ++ trimWs s ++ z ∧ ∀ b ∈ x ++ z, whitespace b) ∧
      (∀ b, (trimWs s).head? = some b → ¬ whitespace b) ∧ ∀ b, (trimWs s).getLast? = some b → ¬ whitespace b := by
  simp only [← isWs_iff, Bool.not_eq_true]
  have htrim : dropEndWhile isWs (s.dropWhile isWs) = trimWs s := rfl
  obtain ⟨⟨z, hz, hzw⟩, hlast⟩ := dropEndWhile_eq_iff.1 htrim
  refine ⟨⟨s.takeWhile isWs, z, ?_, List.forall_mem_append.2 ⟨fun b => List.mem_takeWhile_imp, hzw⟩⟩,
    fun b hb => ?_, hlast⟩
  · rw [List.append_assoc, ← hz, List.takeWhile_append_dropWhile]
  · have hhead : (s.dropWhile isWs).head? = some b := by rw [hz, List.head?_append, hb]; rfl
    simpa [hhead] using List.head?_dropWhile_not isWs s

/-- Settles O21: trimming and stripping both take off exactly what follows a sequence that ends outside W. -/
theorem trimmingRemovesWhitespaceAndAgreesWithStripping :
    Obligations.TrimmingRemovesWhitespaceAndAgreesWithStripping := by
  refine ⟨fun s t => ⟨?_, ?_⟩, fun _ => rfl, fun t z a c ha hwa hc hwc hz => ?_⟩
  · rintro rfl
    obtain ⟨⟨x, z, hs, hw⟩, hhead, hlast⟩ := trimWs_split s
    exact ⟨x, z, hs, hw, hhead, hlast⟩
  · rintro ⟨x, z, rfl, hw, hhead, hlast⟩
    obtain ⟨hx, hz⟩ := List.forall_mem_append.1 hw
    exact trimWs_append hx hz hhead hlast
  · have hstrip : stripTerm (t ++ z) = t := by
      rw [stripTerm, dropEndWhile_append t fun b hb => (isTerm_iff b).2 (hz b hb),
        dropEndWhile_of_last hc (isTerm_of_not_whitespace hwc)]
    have htrim : trimWs (t ++ z) = t :=
      trimWs_append (x := []) (fun _ hb => nomatch hb) (fun b hb => whitespace_of_term (hz b hb))
        (fun b hb => by rw [ha] at hb; cases hb; exact hwa) (fun b hb => by rw [hc] at hb; cases hb; exact hwc)
    exact ⟨hstrip, htrim, by rw [frameBody, htrim, hstrip]⟩

/-! ## Splitting and lookup -/

/-- `split_first_eq` cuts at the first 0x3D (R173). -/
theorem splitFirstEq_eq_some_iff {p l v : Bytes} :
    splitFirstEq p = some { label := l, value := v } ↔ p = l ++ 0x3D :: v ∧ 0x3D ∉ l := by
  refine ⟨splitFirstEq_some, ?_⟩
  rintro ⟨rfl, hl⟩
  exact splitFirstEq_append hl v

/-- `split_first_eq` fails exactly on a piece with no 0x3D (R173). -/
theorem splitFirstEq_eq_none_iff {p : Bytes} : splitFirstEq p = none ↔ 0x3D ∉ p := by
  refine ⟨fun h hmem => ?_, splitFirstEq_of_not_mem⟩
  obtain ⟨l, v, rfl, hl⟩ := List.eq_append_cons_of_mem hmem
  rw [splitFirstEq_append hl] at h
  cases h

/-- Settles O20: the pieces of a split, and the two outcomes of a cut at 0x3D. -/
theorem splittingCutsWhereTheRuleSays : Obligations.SplittingCutsWhereTheRuleSays :=
  ⟨fun c s => ⟨split_join c s, split_mem c s, split_length c s⟩, fun _ _ _ => splitFirstEq_eq_some_iff,
    fun _ => splitFirstEq_eq_none_iff⟩

/-- A search that meets only other labels finds nothing, in whichever order (R184). -/
theorem find?_reverse_label_eq_none {ts : List Token} {l : Bytes} :
    (ts.reverse.find? fun t => t.label == l) = none ↔ ∀ t ∈ ts, t.label ≠ l := by
  simp

/-- Settles O22: searched from the end, the tokens behind the one in question are passed over. -/
theorem lookupTakesTheLastToken : Obligations.LookupTakesTheLastToken := by
  refine ⟨fun r l v before after hr hafter => ?_, fun r l => ?_⟩
  · have hpass := find?_reverse_label_eq_none.2 hafter
    simp [Record.lookup, hr, List.find?_append, hpass]
  · rw [Record.lookup, Option.map_eq_none_iff, find?_reverse_label_eq_none]

/-! ## FRM.VERIFY -/

/-- A truncated line cannot be checked (R176). -/
theorem verifyStep_of_ovf {s : State} (h : s.status.ovf = true) : verifyStep s = (.overflow, setVfy false s) :=
  if_pos h

/-- A line with fewer than three bytes before its terminator has no checksum (R172, R176). -/
theorem verifyStep_of_short {s : State} (ho : s.status.ovf = false) (h : (stripTerm s.lbuf).length < 3) :
    verifyStep s = (.short, setVfy false s) := by
  have hv : verifyBytes s.lbuf = .short := if_pos h
  rw [verifyStep, ho, hv]; rfl

/-- A line of payload, three bytes and terminator verifies exactly when the three bytes are the packed CRC of the payload
(R172, R176). -/
theorem verifyStep_append {s : State} {p k z : Bytes} {c : Byte} (ho : s.status.ovf = false) (hl : s.lbuf = p ++ k ++ z)
    (hk : k.length = 3) (hc : k.getLast? = some c) (hct : isTerm c = false) (hz : ∀ b ∈ z, b = 0x0D ∨ b = 0x0A) :
    verifyStep s = (if k = pack (crc16 p) then .ok else .crcMismatch,
      setVfy (decide (k = pack (crc16 p))) (setCrc (crc16 p) s)) := by
  have hv := verifyBytes_append (p := p) hk hc hct fun b hb => (isTerm_iff b).2 (hz b hb)
  rw [verifyStep, ho, hl, hv]
  by_cases hg : k = pack (crc16 p)
  · simp [hg]
  · simp [hg, Ne.symm hg]

/-- Settles O23: the three kinds of line, each by what the verify step does with it. -/
theorem frmVerifyJudgesTheChecksum : Obligations.FrmVerifyJudgesTheChecksum := by
  refine fun s => ⟨fun ho => ?_, fun ho hs => ?_, fun p z k0 k1 k2 ho hl hz hcr hlf => ?_⟩
  · rw [exec_eq, bodyOf, verifyStep_of_ovf ho]; rfl
  · rw [exec_eq, bodyOf, verifyStep_of_short ho hs]; rfl
  · rw [exec_eq, bodyOf, verifyStep_append ho hl rfl rfl (isTerm_of_ne hcr hlf) hz]
    by_cases hg : [k0, k1, k2] = pack (crc16 p) <;> simp [hg] <;> rfl

/-! ## FRM.TOKENIZE -/

/-- The model's clearing is R175's. -/
theorem clearFrame_eq_frameCleared (s : State) : clearFrame s = frameCleared s := rfl

/-- The table of R174 read backwards: each type has one code. -/
theorem classify_table (c : Bytes) :
    (classify c = .wind ↔ c = [0x72, 0x31]) ∧ (classify c = .ptu ↔ c = [0x72, 0x32]) ∧
      (classify c = .rain ↔ c = [0x72, 0x33]) ∧ (classify c = .status ↔ c = [0x72, 0x35]) := by
  unfold classify; split_ifs <;> simp_all

/-- The ASCII test of the body (R177). -/
theorem hasNonAscii_iff {s : Bytes} : hasNonAscii s = true ↔ ∃ b ∈ s, 0x80 ≤ b.toNat := by
  simp [hasNonAscii]

/-- A body below 0x80 is ASCII (R177). -/
theorem hasNonAscii_of_lt {s : Bytes} (h : ∀ b ∈ s, b.toNat < 0x80) : hasNonAscii s = false :=
  Bool.eq_false_iff.2 fun ha =>
    let ⟨b, hb, hge⟩ := hasNonAscii_iff.1 ha
    absurd (h b hb) (Nat.not_lt.2 hge)

/-- A truncated line is not tokenised (R181). -/
theorem tokenizeStep_of_ovf {s : State} (h : s.status.ovf = true) : tokenizeStep s = (.overflow, clearFrame s) :=
  if_pos h

/-- A body that is not ASCII is not tokenised (R177, R181). -/
theorem tokenizeStep_of_nonAscii {s : State} (ho : s.status.ovf = false) (h : hasNonAscii (frameBody s.lbuf) = true) :
    tokenizeStep s = (.nonascii, clearFrame s) := by
  rw [tokenizeStep, ho, h]; rfl

/-- An ASCII body of a whole line is stored piece by piece (R178, R181). -/
theorem tokenizeStep_of_ascii {s : State} (ho : s.status.ovf = false) (h : hasNonAscii (frameBody s.lbuf) = false) :
    tokenizeStep s = storeFrame (split 0x2C (frameBody s.lbuf)) (clearFrame s) := by
  rw [tokenizeStep, ho, h]; rfl

/-- Settles O24: the table is a list of equalities, and the tokenize step asks for OVF, ASCII and room in turn. -/
theorem frmTokenizeSplitsTheBody : Obligations.FrmTokenizeSplitsTheBody := by
  refine ⟨fun c => ?_, fun s => ⟨fun ho => ?_, fun ho hb => ?_, fun h fields ho hascii hsplit => ?_⟩⟩
  · obtain ⟨hwind, hptu, hrain, hstatus⟩ := classify_table c
    exact ⟨hwind, hptu, hrain, hstatus, classify_eq_none_iff c⟩
  · rw [exec_eq, bodyOf, tokenizeStep_of_ovf ho, clearFrame_eq_frameCleared]
  · rw [exec_eq, bodyOf, tokenizeStep_of_nonAscii ho (hasNonAscii_iff.2 hb), clearFrame_eq_frameCleared]
  · have hstep := tokenizeStep_of_ascii ho (hasNonAscii_of_lt hascii)
    rw [hsplit, storeFrame_eq] at hstep
    refine ⟨fun hfull => ?_, fun hroom => ?_⟩
    · rw [exec_eq, bodyOf, hstep, if_neg (Nat.not_le.2 hfull), clearFrame_eq_frameCleared]
    · rw [exec_eq, bodyOf, hstep, if_pos hroom]

/-! ## FRM.PROCESS -/

/-- Storing the frame neither reads nor writes RES and BUSY (R179, R180). -/
theorem storeFrame_finished (c : ResCode) (pieces : List Bytes) (s : State) :
    storeFrame pieces (finished c s) = ((storeFrame pieces s).1, finished c (storeFrame pieces s).2) := by
  simp only [storeFrame, finished_params]
  cases storeTokens s.params.ntokMax pieces.tail [] <;> rfl

/-- The tokenize step neither reads nor writes RES and BUSY (R181). -/
theorem tokenizeStep_finished (c : ResCode) (s : State) :
    tokenizeStep (finished c s) = ((tokenizeStep s).1, finished c (tokenizeStep s).2) := by
  cases ho : s.status.ovf with
  | true => rw [tokenizeStep_of_ovf ho, tokenizeStep_of_ovf (s := finished c s) ho]; rfl
  | false =>
    cases ha : hasNonAscii (frameBody s.lbuf) with
    | true => rw [tokenizeStep_of_nonAscii ho ha, tokenizeStep_of_nonAscii (s := finished c s) ho ha]; rfl
    | false =>
      rw [tokenizeStep_of_ascii ho ha, tokenizeStep_of_ascii (s := finished c s) ho ha]
      exact storeFrame_finished c _ (clearFrame s)

/-- FRM.TOKENIZE after a finished command: the earlier code is overwritten (00_scope.md R13, R181). -/
theorem exec_frmTokenize_finished (c : ResCode) (s : State) :
    exec .frmTokenize (finished c s) = .next (finished (tokenizeStep s).1 (tokenizeStep s).2) := by
  rw [exec_eq, bodyOf, tokenizeStep_finished]; rfl

/-- Settles O25: the three ends of the pipeline, in the order of its steps. -/
theorem frmProcessVerifiesThenTokenizesThenEmits : Obligations.FrmProcessVerifiesThenTokenizesThenEmits := by
  intro s
  refine ⟨_, exec_eq .frmVerify (clearFrame s), ?_⟩
  rw [exec_eq .frmProcess s]
  simp only [bodyOf, finished_status]
  rcases processStep_cases s with ⟨c, hc, hv, he⟩ | ⟨c, v, hv, hc, ht, he⟩ | ⟨v, t, hv, ht, he⟩
  · subst hv
    exact ⟨fun _ => by rw [he], fun hok => absurd hok hc⟩
  · subst ht
    rw [hv]
    exact ⟨fun h => absurd rfl h, fun _ => ⟨_, exec_frmTokenize_finished .ok v, fun _ => by rw [he],
      fun hok => absurd hok hc⟩⟩
  · rw [hv]
    refine ⟨fun h => absurd rfl h, fun _ => ⟨_, exec_frmTokenize_finished .ok v, ?_⟩⟩
    rw [ht, he]
    exact ⟨fun h => absurd rfl h, fun _ => rfl⟩

/-! ## The verification law -/

/-- The three terminators of R185 hold CR and LF only. -/
theorem term_of_terminator {z : Bytes} (hz : z = [] ∨ z = [0x0D, 0x0A] ∨ z = [0x0A]) :
    ∀ b ∈ z, b = 0x0D ∨ b = 0x0A := by
  rcases hz with rfl | rfl | rfl <;> simp

/-- A line that ends in the last byte of a packed checksum does not end in a terminator (41_crc.md R123). -/
theorem isTerm_pack2 (c : Word) : isTerm (pack2 c) = false :=
  isTerm_of_not_whitespace (not_whitespace_of_mem_pack (pack2_mem_pack c))

/-- LINE.PUT of a byte that has room, on a line that was not truncated (42_line.md R153). -/
theorem exec_linePut_of_room {s : State} (b : Byte) (ho : s.status.ovf = false)
    (h : s.lbuf.length < s.params.lbufMax) :
    exec (.linePut b) s = .next (finished .ok (lineFlags false { s with lbuf := s.lbuf ++ [b] })) := by
  rw [exec_linePut, lbufAppend_of_room b h]
  simp only [ho]; rfl

/-- The words of LINE.STR append their bytes in order, where they have room (42_line.md R153, 30_encoding.md R99). -/
theorem run_issue_lineStr (l : Bytes) (is : List Instr) (k : Nat) (s : State) (ho : s.status.ovf = false)
    (hl : s.lbuf.length + l.length ≤ s.params.lbufMax) :
    Host.Core.run Sys2Proof.core (l.length + k) (issue (lineStr l ++ is) (finished .ok (lineFlags false s))) =
      Host.Core.run Sys2Proof.core k
        (issue is (finished .ok (lineFlags false { s with lbuf := s.lbuf ++ l }))) := by
  induction l generalizing s with
  | nil => rw [List.length_nil, Nat.zero_add, List.append_nil]; rfl
  | cons b l ih =>
    rw [List.length_cons] at hl
    have hput := exec_linePut_of_room (s := accept (issue (lineStr l ++ is) (finished .ok (lineFlags false s)))) b ho
      (show s.lbuf.length < s.params.lbufMax by omega)
    have hrest := ih { s with lbuf := s.lbuf ++ [b] } ho
      (show (s.lbuf ++ [b]).length + l.length ≤ s.params.lbufMax by rw [List.length_append, List.length_singleton]; omega)
    rw [List.append_assoc] at hrest
    rw [List.length_cons, Nat.add_right_comm]
    exact (run_issue_cons _ rfl hput).trans hrest

/-- The words of LINE.LOAD leave the line they spell, where it fits, with its flags clear (42_line.md R152, R153). -/
theorem run_issue_lineLoadStr (l : Bytes) (is : List Instr) (k : Nat) {s : State} (hb : s.status.busy = false)
    (hl : l.length ≤ s.params.lbufMax) :
    Host.Core.run Sys2Proof.core (l.length + k + 1) (issue (lineLoadStr l ++ is) s) =
      Host.Core.run Sys2Proof.core k
        (issue is (finished .ok (lineFlags false { lineEmpty s with lbuf := l }))) := by
  calc Host.Core.run Sys2Proof.core (l.length + k + 1) (issue (lineLoadStr l ++ is) s)
    _ = Host.Core.run Sys2Proof.core (l.length + k)
          (issue (lineStr l ++ is) (finished .ok (lineFlags false (lineEmpty s)))) := run_issue_cons _ hb rfl
    _ = _ := run_issue_lineStr l is k (lineEmpty s) rfl (by rw [lineEmpty_lbuf, List.length_nil, Nat.zero_add]; exact hl)

/-- A frame with its own checksum verifies (R176). -/
theorem verifyStep_own_checksum {s : State} {p z : Bytes} (ho : s.status.ovf = false)
    (hl : s.lbuf = p ++ pack (crc16 p) ++ z) (hz : ∀ b ∈ z, b = 0x0D ∨ b = 0x0A) :
    verifyStep s = (.ok, setVfy true (setCrc (crc16 p) s)) := by
  rw [verifyStep_append ho hl rfl rfl (isTerm_pack2 _) hz]
  simp

/-- Settles O26: the words of LINE.LOAD leave the frame in LBUF, and FRM.VERIFY finds its own checksum there. -/
theorem loadedFrameWithItsChecksumVerifies : Obligations.LoadedFrameWithItsChecksumVerifies := by
  intro s p z hb hz hfit
  generalize hl : p ++ pack (crc16 p) ++ z = l
  have hlen : l.length = p.length + 3 + z.length := by
    rw [← hl, List.length_append, List.length_append, pack_length]
  have hrun := run_issue_lineLoadStr l [.frmVerify] 1 hb (by omega)
  have hverify := exec_eq .frmVerify (accept (issue [] (finished .ok (lineFlags false { lineEmpty s with lbuf := l }))))
  rw [bodyOf, verifyStep_own_checksum rfl hl.symm (term_of_terminator hz)] at hverify
  have hsteps : p.length + z.length + 5 = l.length + 1 + 1 := by omega
  rw [hsteps, hrun]
  refine ⟨_, run_succ_of_next 0 ((step_issue_cons .frmVerify [] rfl).trans hverify), ?_⟩
  exact ⟨rfl, rfl, rfl, rfl, ⟨rfl, rfl, rfl, rfl, rfl, rfl⟩, ⟨rfl, rfl⟩, rfl, rfl⟩

/-! ## One changed byte -/

/-- Folding further bytes in loses nothing of what came before (41_crc.md R120, R121). -/
theorem foldl_crcStep_injective (l : Bytes) : Function.Injective fun a => l.foldl crcStep a := by
  obtain ⟨hacc, -⟩ := crcStepIsInjectiveInEachArgument
  induction l with
  | nil => exact fun _ _ h => h
  | cons b l ih => exact fun a a' h => hacc a a' b (ih h)

/-- Sequences of which only one byte differs have different CRCs (R185). -/
theorem crc16_ne_of_one_byte (x y : Bytes) {b v : Byte} (h : b ≠ v) :
    crc16 (x ++ v :: y) ≠ crc16 (x ++ b :: y) := by
  obtain ⟨-, hbyte⟩ := crcStepIsInjectiveInEachArgument
  rw [crc16_append, crc16_append]
  exact fun he => h (hbyte _ b v (foldl_crcStep_injective y he).symm)

/-- A changed byte changes the CRC (R185). -/
theorem crc16_set_ne {p : Bytes} {k : Nat} {v : Byte} (hk : k < p.length) (hv : p[k]? ≠ some v) :
    crc16 (p.set k v) ≠ crc16 p := by
  rw [List.getElem?_eq_getElem hk] at hv
  have hp : p = p.take k ++ p[k] :: p.drop (k + 1) := by rw [List.getElem_cons_drop, List.take_append_drop]
  have hset : p.set k v = p.take k ++ v :: p.drop (k + 1) := List.set_eq_take_append_cons_drop.trans (if_pos hk)
  have hne := crc16_ne_of_one_byte (p.take k) (p.drop (k + 1)) (b := p[k]) (v := v) fun h => hv (congrArg some h)
  rwa [← hset, ← hp] at hne

/-- A changed byte makes a sequence another one. -/
theorem set_ne_self {p : Bytes} {k : Nat} {v : Byte} (hk : k < p.length) (hv : p[k]? ≠ some v) : p.set k v ≠ p := by
  intro h
  refine hv ?_
  rw [← h, List.getElem?_set_self hk]

/-- The line with one byte changed is again a payload and three bytes that do not end in a terminator, but the three bytes
are not the payload's packed CRC: the change moved the CRC, or the three bytes (R185). -/
theorem changed_frame_split {p : Bytes} {k : Nat} {v : Byte} (hk : k < p.length + 3)
    (hv : (p ++ pack (crc16 p))[k]? ≠ some v) (hlast : k = p.length + 2 → v ≠ 0x0D ∧ v ≠ 0x0A) :
    ∃ q c e, (p ++ pack (crc16 p)).set k v = q ++ c ∧ c.length = 3 ∧ c.getLast? = some e ∧ isTerm e = false ∧
      c ≠ pack (crc16 q) := by
  rcases Nat.lt_or_ge k p.length with hp | hp
  · rw [List.getElem?_append_left hp] at hv
    refine ⟨p.set k v, pack (crc16 p), pack2 (crc16 p), List.set_append_left _ _ hp, rfl, rfl, isTerm_pack2 _, ?_⟩
    exact fun he => crc16_set_ne hp hv (pack_injective he).symm
  · rw [List.getElem?_append_right hp] at hv
    obtain ⟨i, rfl⟩ : ∃ i, k = p.length + i := ⟨k - p.length, by omega⟩
    rw [Nat.add_sub_cancel_left] at hv
    have hi : i < 3 := by omega
    have hset : (p ++ pack (crc16 p)).set (p.length + i) v = p ++ (pack (crc16 p)).set i v := by
      rw [List.set_append_right _ _ hp, Nat.add_sub_cancel_left]
    have hne : (pack (crc16 p)).set i v ≠ pack (crc16 p) := set_ne_self hi hv
    by_cases h2 : i = 2
    · subst h2
      obtain ⟨hcr, hlf⟩ := hlast rfl
      exact ⟨p, _, v, hset, rfl, rfl, isTerm_of_ne hcr hlf, hne⟩
    · have hend : ((pack (crc16 p)).set i v).getLast? = some (pack2 (crc16 p)) := by
        rw [List.getLast?_eq_getElem?, List.length_set, pack_length, List.getElem?_set_ne h2]; rfl
      exact ⟨p, _, _, hset, List.length_set, hend, isTerm_pack2 _, hne⟩

/-- Settles O27: the changed line is a payload with three bytes that are not its checksum. -/
theorem oneChangedByteNeverVerifies : Obligations.OneChangedByteNeverVerifies := by
  intro s p z k v hz hk hv hlast hl
  refine ⟨_, exec_eq .frmVerify s, ?_⟩
  rw [finished_status, bodyOf]
  cases ho : s.status.ovf with
  | true => rw [verifyStep_of_ovf ho]; rfl
  | false =>
    obtain ⟨q, c, e, hset, hc3, hce, hterm, hne⟩ := changed_frame_split hk hv hlast
    rw [hset] at hl
    rw [verifyStep_append ho hl hc3 hce hterm (term_of_terminator hz)]
    exact decide_eq_false hne

/-! ## The tokenize round trip -/

/-- The body of a frame that starts outside W, with its checksum and no terminator, is the frame (R177, R187). -/
theorem frameBody_append_pack {f : Bytes} (c : Word) (h : ∀ b, f.head? = some b → ¬ whitespace b) (hf : f ≠ []) :
    frameBody (f ++ pack c) = f := by
  have hhead : ∀ b, (f ++ pack c).head? = some b → ¬ whitespace b := by
    rw [List.head?_append_of_ne_nil f hf]
    exact h
  have hlast : ∀ b, (f ++ pack c).getLast? = some b → ¬ whitespace b := by
    intro b hb
    rw [List.getLast?_append] at hb
    cases hb
    exact not_whitespace_of_mem_pack (pack2_mem_pack c)
  have htrim := trimWs_append (x := []) (z := []) (fun _ hb => nomatch hb) (fun _ hb => nomatch hb) hhead hlast
  rw [List.nil_append, List.append_nil] at htrim
  rw [frameBody, htrim, dropLast3, List.length_append, pack_length, Nat.add_sub_cancel, List.take_left]

/-- No recognised code holds a comma (R174). -/
theorem comma_not_mem_of_classify {c : Bytes} (h : classify c ≠ .none) : 0x2C ∉ c := by
  intro hc
  refine h ((classify_eq_none_iff c).2 ⟨?_, ?_, ?_, ?_⟩) <;> rintro rfl <;> exact absurd hc (by decide)

/-- An assembled frame is split into its header and its two field pieces (R178, R186). -/
theorem split_assembled {h x y : Bytes} (hh : 0x2C ∉ h) (hx : 0x2C ∉ x) (hy : 0x2C ∉ y) :
    split 0x2C (h ++ 0x2C :: (x ++ 0x2C :: y)) = [h, x, y] := by
  rw [split_append hh, split_append hx, split_of_not_mem hy]

/-- A field piece holds no comma where its label and value hold none (R186). -/
theorem comma_not_mem_field {l v : Bytes} (hl : ∀ b ∈ l, b ≠ 0x2C) (hv : ∀ b ∈ v, b ≠ 0x2C) :
    0x2C ∉ l ++ 0x3D :: v := by
  rw [List.mem_append, List.mem_cons, not_or, not_or]
  exact ⟨fun h => hl _ h rfl, by decide, fun h => hv _ h rfl⟩

/-- Settles O28: the body is the frame, its pieces are the header and the two fields, and each field is cut at its
first 0x3D. -/
theorem tokenizeRecoversTheTokens : Obligations.TokenizeRecoversTheTokens := by
  intro s a c l1 v1 l2 v2 f haw hac hcode hcomma heq hascii hroom ho hl
  have hf : f = (a :: c) ++ 0x2C :: ((l1 ++ 0x3D :: v1) ++ 0x2C :: (l2 ++ 0x3D :: v2)) := by simp [f]
  have hbody : frameBody s.lbuf = f := by
    rw [hl]
    exact frameBody_append_pack _ (fun b hb => by cases hb; exact haw) (by simp [f])
  have hheader : 0x2C ∉ a :: c := by
    rw [List.mem_cons, not_or]
    exact ⟨Ne.symm hac, comma_not_mem_of_classify hcode⟩
  simp only [List.forall_mem_append] at hcomma heq
  obtain ⟨⟨⟨hl1, hv1⟩, hl2⟩, hv2⟩ := hcomma
  obtain ⟨he1, he2⟩ := heq
  have hsplit : split 0x2C (frameBody s.lbuf) = [a :: c, l1 ++ 0x3D :: v1, l2 ++ 0x3D :: v2] := by
    rw [hbody, hf]
    exact split_assembled hheader (comma_not_mem_field hl1 hv1) (comma_not_mem_field hl2 hv2)
  have htokens : [l1 ++ 0x3D :: v1, l2 ++ 0x3D :: v2].filterMap splitFirstEq =
      [{ label := l1, value := v1 }, { label := l2, value := v2 }] := by
    simp only [List.filterMap_cons, splitFirstEq_append (fun h => he1 _ h rfl),
      splitFirstEq_append (fun h => he2 _ h rfl), List.filterMap_nil]
  obtain ⟨-, -, hstored⟩ := frmTokenizeSplitsTheBody.2 s
  have hexec := (hstored _ _ ho (by rw [hbody]; exact hascii) hsplit).2 (by rw [htokens]; exact hroom)
  rw [htokens] at hexec
  obtain ⟨hlen, htail⟩ := header_of_classify (h := a :: c) hcode
  refine ⟨_, hexec, if_neg hcode, rfl, htail.symm, congrArg (BitVec.ofNat 16) hlen, rfl, rfl, ⟨rfl, rfl, rfl, rfl⟩, rfl,
    rfl, rfl⟩

end Sys2Proof.Proofs


/-! PROOFS. The statement of 44_wire.md about the address reply: RSP.ADDR takes the line's first byte when it is a digit or
a letter (R200, R207, R209). -/

namespace Sys2Proof.Proofs

open Sys2Proof.Machine Sys2Proof.Claims

/-- The model's test for a digit or a letter is the set of R200. -/
theorem isAlnum_iff (b : Byte) : isAlnum b = true ↔ alnum b := by
  simp [isAlnum, alnum, or_assoc]

/-- A line is an address reply exactly when it starts with a digit or a letter (R207). -/
theorem addressOk_iff (l : Bytes) : addressOk l = true ↔ ∃ a, l.head? = some a ∧ alnum a := by
  cases l with
  | nil => simp [addressOk]
  | cons b bs => simp [addressOk, isAlnum_iff]

/-- RSP.ADDR in IDLE answers what its address test answers (R209). -/
theorem exec_rspAddr {s : State} (hq : s.sess = .idle) :
    exec .rspAddr s = .next (finished (takeAddress s).1 (takeAddress s).2) :=
  exec_of_allowed rfl (idleRefusal_eq_none.2 hq)

/-- The address test on a line that starts with a digit or a letter takes that byte (R209). -/
theorem takeAddress_of_alnum {s : State} {a : Byte} {rest : Bytes} (hl : s.lbuf = a :: rest) (ha : alnum a) :
    takeAddress s = (.ok, setAddr a s) := by
  have hok : addressOk s.lbuf = true := (addressOk_iff _).2 ⟨a, by rw [hl, List.head?_cons], ha⟩
  rw [takeAddress, if_pos hok, hl, List.headD_cons]

/-- The address test on a line that is empty or starts with another byte changes nothing (R209). -/
theorem takeAddress_of_not_alnum {s : State} (h : ∀ a, s.lbuf.head? = some a → ¬ alnum a) :
    takeAddress s = (.noAddressReply, s) := by
  refine if_neg fun hok => ?_
  obtain ⟨a, hhead, ha⟩ := (addressOk_iff _).1 hok
  exact h a hhead ha

/-- Settles O30: RSP.ADDR is refused outside IDLE, and in IDLE the address test takes the first byte or nothing. -/
theorem rspAddrTakesAnAlphanumericByte : Obligations.RspAddrTakesAnAlphanumericByte := by
  refine fun s => ⟨fun hq => exec_of_refused rfl (idleRefusal_badState hq), fun a rest hq hl ha => ?_, fun hq h => ?_⟩
  · rw [exec_rspAddr hq, takeAddress_of_alnum hl ha, setAddr]
  · rw [exec_rspAddr hq, takeAddress_of_not_alnum h]

end Sys2Proof.Proofs


/-! PROOFS. The statements of 45_session.md: the session invariants are kept (R231), the state table is what the checks
refuse (R230), SEQ.SHUTDOWN ends the session (R252), SEQ.CYCLE is a read and FRM.PROCESS and depends on its line alone
(R250, R251), SEQ.ESTABLISH starts or fails (R246, R247), and SEQ.DISCOVER searches every candidate and finds the first
that answers (R237, R239, R240). -/

namespace Sys2Proof.Proofs

open Sys2Proof.Machine Sys2Proof.Claims

/-! ## The session invariants -/

/-- The invariants (a) to (e) of R231 read by the value of SESS: what the flags of STATUS are in each steady state. -/
def sessionFlags (t : Status) : Sess → Prop
  | .idle => t.auto = false ∧ t.fatal = false
  | .found => t.auto = false ∧ t.fatal = false ∧ t.opn = false
  | .sessionReady => t.auto = true ∧ t.fatal = false ∧ t.opn = true ∧ t.addrv = true
  | .notFound | .sessionFailed => t.auto = false ∧ t.fatal = true ∧ t.opn = false
  | .scanning | .establishing => False

/-- SESS is steady and the flags are those of its value. -/
def SessionSteady (s : State) : Prop := sessionFlags s.status s.sess

/-- The session invariants are these flags and BUSY = 0. -/
theorem sessionInv_iff (s : State) : SessionInv s ↔ s.status.busy = false ∧ SessionSteady s := by
  unfold SessionSteady
  constructor
  · rintro ⟨hb, ⟨hsc, hes⟩, ha, hr, ho, hf, hc⟩
    refine ⟨hb, ?_⟩
    cases hq : s.sess <;> simp_all [sessionFlags]
  · rintro ⟨hb, h⟩
    cases hq : s.sess <;> rw [hq] at h <;> simp only [sessionFlags] at h <;> constructor <;> simp_all

/-- Opening, closing and addressing keep an idle state steady: no rule of R231 asks for these flags in IDLE. -/
theorem sessionSteady_of_idle {s t : State} (h : SessionSteady s) (hs : s.sess = .idle) (hq : t.sess = .idle)
    (ha : t.status.auto = s.status.auto) (hf : t.status.fatal = s.status.fatal) : SessionSteady t := by
  rw [SessionSteady, hs] at h
  rw [SessionSteady, hq, sessionFlags, ha, hf]
  exact h

/-- The pipeline does not touch the session (43_frame.md R183, 20_memory.md R75). -/
theorem sessionSteady_processStep {s : State} (h : SessionSteady s) : SessionSteady (processStep s).2 := by
  obtain ⟨_, _, _, _, _, _, _, _, _, _, _, _, e, -⟩ := processStep_frame s
  rw [e]; exact h

/-- Reading a line does not touch the session (42_line.md R154). -/
theorem sessionSteady_readIntoLine {s : State} (h : SessionSteady s) : SessionSteady (readIntoLine s) := by
  rw [readIntoLine_eq]; exact h

/-- A search leaves AUTO and FATAL as they were and the port closed, and on FOUND SESS is FOUND (R237 to R239). -/
theorem probeAll_session (cs : List (Nat × Nat)) {s : State} (ho : s.status.opn = false) :
    (probeAll cs .openFailed (startScan s)).2.status.auto = s.status.auto ∧
      (probeAll cs .openFailed (startScan s)).2.status.fatal = s.status.fatal ∧
      (probeAll cs .openFailed (startScan s)).2.status.opn = false ∧
      ((probeAll cs .openFailed (startScan s)).1 = .found →
        (probeAll cs .openFailed (startScan s)).2.sess = .found) := by
  rcases probeAll_ends cs .openFailed (startScan s) nofun ho rfl with
    ⟨_, _, _, _, _, _, _, _, _, t, -, -, -, -, -, -, -, -, e, et⟩ |
    ⟨o, _, _, _, _, _, _, _, _, t, hn, -, -, e, et⟩ <;> rw [e, et]
  · exact ⟨rfl, rfl, rfl, fun _ => rfl⟩
  · exact ⟨rfl, rfl, rfl, fun hf => absurd hf hn⟩

/-- SEQ.PROBE ends FOUND or IDLE, with the port closed (R238). -/
theorem sessionSteady_probePort (p : Nat) {s : State} (h : SessionSteady s) (hr : openRefusal s = none) :
    SessionSteady (probePort p s).2 := by
  obtain ⟨hq, ho⟩ := openRefusal_eq_none.1 hr
  rw [SessionSteady, hq] at h
  obtain ⟨ha, hf⟩ := h
  obtain ⟨ea, ef, eo, eq⟩ := probeAll_session (portCandidates s p) ho
  unfold probePort SessionSteady
  dsimp only
  split
  · next hfound => rw [eq hfound]; exact ⟨ea.trans ha, ef.trans hf, eo⟩
  · exact ⟨ea.trans ha, ef.trans hf⟩

/-- SEQ.DISCOVER ends FOUND or, fatally, NOT_FOUND, with the port closed (R239). -/
theorem sessionSteady_discoverAll {s : State} (h : SessionSteady s) (hr : openRefusal s = none) :
    SessionSteady (discoverAll s).2 := by
  obtain ⟨hq, ho⟩ := openRefusal_eq_none.1 hr
  rw [SessionSteady, hq] at h
  obtain ⟨ha, hf⟩ := h
  obtain ⟨ea, ef, eo, eq⟩ := probeAll_session (allCandidates s) ho
  unfold discoverAll SessionSteady
  dsimp only
  split
  · next hfound => rw [eq hfound]; exact ⟨ea.trans ha, ef.trans hf, eo⟩
  · exact ⟨ea.trans ha, rfl, eo⟩

/-- SEQ.ESTABLISH ends SESSION_READY with its port open, or, fatally, SESSION_FAILED with it closed (R246, R247). -/
theorem sessionSteady_establishSession (p : Nat) {s : State} (h : SessionSteady s) (hr : establishRefusal s = none) :
    SessionSteady (establishSession p s).2 := by
  obtain ⟨hq, ho, hv⟩ := establishRefusal_eq_none.1 hr
  have hflags : s.status.auto = false ∧ s.status.fatal = false := by
    rw [SessionSteady] at h
    rcases hq with hq | hq <;> rw [hq] at h
    · exact h
    · obtain ⟨ha, hf, -⟩ := h
      exact ⟨ha, hf⟩
  obtain ⟨ha, hf⟩ := hflags
  rcases establishSession_cases p s with ⟨-, e⟩ | ⟨-, e⟩ | ⟨-, r, x, v, -, -, e⟩ <;> rw [e]
  · exact ⟨ha, rfl, ho⟩
  · exact ⟨ha, rfl, ho⟩
  · cases v with
    | true => exact ⟨rfl, hf, rfl, hv⟩
    | false => exact ⟨ha, rfl, rfl⟩

/-- SEQ.SHUTDOWN closes the port and clears AUTO, so that every state it ends in is steady (R252). -/
theorem sessionSteady_shutdown {s : State} (h : SessionSteady s) : SessionSteady (bodyOf .seqShutdown s).2 := by
  have ho := closeIfOpen_opn s
  have hf : (closeIfOpen s).status.fatal = s.status.fatal ∧ (closeIfOpen s).sess = s.sess := by
    unfold closeIfOpen
    split <;> exact ⟨rfl, rfl⟩
  obtain ⟨hf, hq⟩ := hf
  rw [SessionSteady] at h ⊢
  simp only [bodyOf, setSess_status, setSess_sess, setAuto_status, setAuto_sess, hq]
  cases hs : s.sess <;> rw [hs] at h <;> simp_all [sessionFlags, shutdownSess]

/-- Every command's body keeps SESS steady and the flags those of its value: outside the session family only IDLE has
writers of OPEN and ADDRV, and it asks for neither (R230, R231). -/
theorem sessionSteady_bodyOf (i : Instr) {s : State} (h : SessionSteady s) : SessionSteady (bodyOf i s).2 := by
  cases i with
  | crcClr | crcByte | crcPack | lineClr | rspIdent | rspAck => exact h
  | linePut b => simp only [bodyOf, linePutState_eq]; exact h
  | frmVerify => obtain ⟨_, _, _, _, _, e⟩ := verifyStep_frame s; simp only [bodyOf, e]; exact h
  | frmTokenize => obtain ⟨_, _, _, _, _, _, e⟩ := tokenizeStep_frame s; simp only [bodyOf, e]; exact h
  | frmProcess => exact sessionSteady_processStep h
  | lineRead => exact guarded_keeps h fun _ => sessionSteady_readIntoLine h
  | txProbe | txSettings | txSetmode | xptSettle | xptFlush => exact guarded_keeps h fun _ => h
  | rspAddr =>
    refine guarded_keeps h fun hr => ?_
    have hq := idleRefusal_eq_none.1 hr
    unfold takeAddress
    split
    · exact sessionSteady_of_idle h hq hq rfl rfl
    · exact h
  | xptOpen p =>
    refine guarded_keeps h fun hr => ?_
    obtain ⟨hq, -⟩ := openRefusal_eq_none.1 hr
    split
    · exact sessionSteady_of_idle h hq hq rfl rfl
    · exact h
  | xptClose =>
    refine guarded_keeps h fun hr => ?_
    have hq := idleRefusal_eq_none.1 hr
    unfold closeIfOpen
    split
    · exact sessionSteady_of_idle h hq hq rfl rfl
    · exact h
  | addrSet a =>
    refine guarded_keeps h fun hr => ?_
    have hq := idleRefusal_eq_none.1 hr
    exact sessionSteady_of_idle h hq hq rfl rfl
  | seqProbe p =>
    refine guarded_keeps h fun hr => ?_
    split
    · exact sessionSteady_probePort _ h hr
    · exact h
  | seqDiscover => exact guarded_keeps h fun hr => sessionSteady_discoverAll h hr
  | seqEstablish p => exact guarded_keeps h fun hr => sessionSteady_establishSession _ h hr
  | seqCycle =>
    refine guarded_keeps h fun _ => ?_
    unfold cycleStep
    split
    · exact sessionSteady_readIntoLine h
    · exact sessionSteady_processStep (sessionSteady_readIntoLine h)
  | seqShutdown => exact sessionSteady_shutdown h

/-- Settles O49: a command's body keeps the flags those of SESS, and `finish` clears BUSY. -/
theorem sessionInvariantIsKept : Obligations.SessionInvariantIsKept := by
  intro s t h hst
  obtain ⟨hb, hs⟩ := (sessionInv_iff s).1 h
  refine (sessionInv_iff t).2 ⟨?_, ?_⟩
  · rcases step_next hst with rfl | ⟨-, rfl⟩ | ⟨after, rest, -, rfl⟩ | ⟨i, -, e⟩
    · exact hb
    · rfl
    · rfl
    · rw [exec_next e]; rfl
  · exact step_keeps (P := SessionSteady) (fun _ _ h => h) (fun _ h => h) (fun _ _ h => h)
      (fun _ _ _ => ⟨rfl, rfl⟩) (fun i _ h => sessionSteady_bodyOf i h) hst hs

/-! ## The state table -/

/-- What a command's checks answer; none for a command with no check (R230, 60_exceptions.md R274). -/
def refusalOf (i : Instr) (s : State) : Option ResCode :=
  match i with
  | .lineRead => readRefusal s
  | .txProbe | .xptSettle | .xptFlush => portRefusal s
  | .txSettings | .txSetmode => txRefusal s
  | .rspAddr | .xptClose | .addrSet _ => idleRefusal s
  | .xptOpen _ | .seqProbe _ | .seqDiscover => openRefusal s
  | .seqEstablish _ => establishRefusal s
  | .seqCycle => cycleRefusal s
  | .crcClr | .crcByte _ | .crcPack | .lineClr | .linePut _ | .frmVerify | .frmTokenize | .frmProcess => none
  | .rspIdent | .rspAck | .seqShutdown => none

/-- Behind its checks no command answers BAD_STATE (60_exceptions.md R271, R274). -/
theorem bodyOf_eq_guarded (i : Instr) (s : State) :
    ∃ b : ResCode × State, b.1 ≠ .badState ∧ bodyOf i s = guarded (refusalOf i s) s b := by
  have unchecked (hm : .badState ∉ mayReport i) (hr : refusalOf i s = none) :
      ∃ b : ResCode × State, b.1 ≠ .badState ∧ bodyOf i s = guarded (refusalOf i s) s b :=
    ⟨bodyOf i s, fun hc => hm (hc ▸ bodyOf_code_mem i s), by rw [hr]; rfl⟩
  cases i with
  | crcClr | crcByte | crcPack | lineClr | linePut | frmVerify | frmTokenize | frmProcess | rspIdent | rspAck
  | seqShutdown => exact unchecked (by simp [mayReport]) rfl
  | txProbe | txSettings | txSetmode | xptSettle | xptFlush | xptClose | addrSet =>
    refine ⟨_, ?_, rfl⟩
    exact nofun
  | lineRead =>
    refine ⟨_, ?_, rfl⟩
    simp only [lineReadCode]; split_ifs <;> decide
  | rspAddr =>
    refine ⟨_, ?_, rfl⟩
    unfold takeAddress; split <;> exact nofun
  | xptOpen p =>
    refine ⟨_, ?_, rfl⟩
    simp only [openManual]; split_ifs <;> exact nofun
  | seqProbe p =>
    refine ⟨_, ?_, rfl⟩
    split
    · simp only [probePort]
      cases (probeAll (portCandidates s p.toNat) .openFailed (startScan s)).1 <;> exact nofun
    · exact nofun
  | seqDiscover =>
    refine ⟨_, ?_, rfl⟩
    simp only [discoverAll]; split <;> exact nofun
  | seqEstablish p =>
    refine ⟨_, ?_, rfl⟩
    rcases establishSession_cases p.toNat s with ⟨-, e⟩ | ⟨-, e⟩ | ⟨-, r, x, v, -, -, e⟩ <;> rw [e]
    · exact nofun
    · exact nofun
    · cases v <;> exact nofun
  | seqCycle =>
    have hp : .badState ∉ mayReport .frmProcess := by decide
    refine ⟨_, ?_, rfl⟩
    unfold cycleStep
    split
    · exact nofun
    · exact fun hc => hp (hc ▸ processStep_code _)

/-- Where LINE.READ answers BAD_STATE (42_line.md R154). -/
theorem readRefusal_eq_badState {s : State} :
    readRefusal s = some .badState ↔ s.sess ≠ .idle ∧ s.sess ≠ .sessionReady := by
  unfold readRefusal; split_ifs <;> simp_all

/-- Where TX.PROBE, XPT.SETTLE and XPT.FLUSH answer BAD_STATE (R233, R234). -/
theorem portRefusal_eq_badState {s : State} : portRefusal s = some .badState ↔ s.sess ≠ .idle := by
  unfold portRefusal; split_ifs <;> simp_all

/-- Where TX.SETTINGS and TX.SETMODE answer BAD_STATE (44_wire.md R202). -/
theorem txRefusal_eq_badState {s : State} : txRefusal s = some .badState ↔ s.sess ≠ .idle := by
  unfold txRefusal; split_ifs <;> simp_all

/-- Where RSP.ADDR, XPT.CLOSE and ADDR.SET answer BAD_STATE (R230). -/
theorem idleRefusal_eq_badState {s : State} : idleRefusal s = some .badState ↔ s.sess ≠ .idle := by
  unfold idleRefusal; split_ifs <;> simp_all

/-- Where XPT.OPEN, SEQ.PROBE and SEQ.DISCOVER answer BAD_STATE (R232, R238, R239). -/
theorem openRefusal_eq_badState {s : State} :
    openRefusal s = some .badState ↔ s.sess ≠ .idle ∨ s.status.opn = true := by
  unfold openRefusal; split_ifs <;> simp_all

/-- Where SEQ.ESTABLISH answers BAD_STATE (R246). -/
theorem establishRefusal_eq_badState {s : State} :
    establishRefusal s = some .badState ↔ (s.sess ≠ .idle ∧ s.sess ≠ .found) ∨ s.status.opn = true := by
  unfold establishRefusal; split_ifs <;> simp_all

/-- Where SEQ.CYCLE answers BAD_STATE (R250). -/
theorem cycleRefusal_eq_badState {s : State} : cycleRefusal s = some .badState ↔ s.sess ≠ .sessionReady := by
  unfold cycleRefusal; split_ifs <;> simp_all

/-- The checks answer BAD_STATE where the table allows no such command, and with a port open for XPT.OPEN and
SEQ.ESTABLISH (R230, R232, R246). -/
theorem refusalOf_eq_badState (i : Instr) (s : State) :
    refusalOf i s = some .badState ↔
      allowed i s.sess s.status.opn = false ∨ (s.status.opn = true ∧ (opcode i = 0x50 ∨ opcode i = 0x62)) := by
  cases i with
  | crcClr | crcByte | crcPack | lineClr | linePut | frmVerify | frmTokenize | frmProcess | rspIdent | rspAck
  | seqShutdown => simp [refusalOf, allowed, opcode]
  | lineRead => simp [refusalOf, allowed, opcode, readRefusal_eq_badState]
  | txProbe | xptSettle | xptFlush => simp [refusalOf, allowed, opcode, portRefusal_eq_badState]
  | txSettings | txSetmode => simp [refusalOf, allowed, opcode, txRefusal_eq_badState]
  | rspAddr | xptClose | addrSet => simp [refusalOf, allowed, opcode, idleRefusal_eq_badState]
  | xptOpen | seqProbe | seqDiscover =>
    simp [refusalOf, allowed, opcode, openRefusal_eq_badState, imp_iff_not_or]
  | seqEstablish =>
    simp only [refusalOf, allowed, opcode, establishRefusal_eq_badState]
    cases s.sess <;> simp
  | seqCycle => simp [refusalOf, allowed, opcode, cycleRefusal_eq_badState]

/-- Settles O41: a command answers BAD_STATE through its checks alone, and they follow the table. -/
theorem badStateIsWhatTheTableSays : Obligations.BadStateIsWhatTheTableSays := by
  intro i s
  obtain ⟨b, hb, e⟩ := bodyOf_eq_guarded i s
  refine ⟨fun hn => exec_of_refused e ((refusalOf_eq_badState i s).2 (.inl hn)), fun ha hx => ⟨_, exec_eq i s, ?_⟩⟩
  have hr : refusalOf i s ≠ some .badState := fun h => by
    rcases (refusalOf_eq_badState i s).1 h with hn | ⟨ho, hop⟩
    · exact absurd (ha.symm.trans hn) nofun
    · obtain ⟨h50, h62⟩ := hx ho
      exact hop.elim h50 h62
  rw [finished_status, e]
  rcases guarded_cases (refusalOf i s) s b with ⟨c, hc, eg⟩ | ⟨-, eg⟩ <;> rw [eg]
  · exact fun h => hr (hc.trans (congrArg some h))
  · exact hb

/-! ## SEQ.SHUTDOWN -/

/-- The states of SESS that a shutdown brings back to IDLE (R252). -/
theorem shutdownSess_eq (q : Sess) :
    shutdownSess q = if q = .idle ∨ q = .found ∨ q = .sessionReady then .idle else q := by
  cases q <;> rfl

/-- Settles O40: with a port open and with none. -/
theorem seqShutdownEndsTheSession : Obligations.SeqShutdownEndsTheSession := by
  refine fun s => ⟨fun ho => ?_, fun ho => ?_⟩
  · rw [exec_eq, bodyOf, closeIfOpen_of_closed ho, shutdownSess_eq]; rfl
  · rw [exec_eq, bodyOf, closeIfOpen_of_open ho, shutdownSess_eq]; rfl

/-! ## SEQ.CYCLE -/

/-- SEQ.CYCLE in SESSION_READY (R250). -/
theorem exec_seqCycle {s : State} (hq : s.sess = .sessionReady) :
    exec .seqCycle s = .next (finished (cycleStep s).1 (cycleStep s).2) :=
  exec_of_allowed rfl (cycleRefusal_eq_none.2 hq)

/-- A cycle on an empty read clears the frame registers (R250). -/
theorem cycleStep_of_empty {s : State} (h : nextLine s = []) : cycleStep s = (.empty, clearFrame (readIntoLine s)) :=
  if_pos h

/-- A cycle on any other line is the pipeline on it (R250). -/
theorem cycleStep_of_line {s : State} (h : nextLine s ≠ []) : cycleStep s = processStep (readIntoLine s) :=
  if_neg h

/-- Settles O38: the empty read, and the pipeline on the line read. -/
theorem seqCycleReadsThenProcesses : Obligations.SeqCycleReadsThenProcesses := by
  intro s hq l u
  have hu : u = readIntoLine s := by rw [readIntoLine_eq, endsInLf_eq]
  rw [exec_seqCycle hq, hu]
  refine ⟨fun hl => ?_, fun hl => ⟨?_, _, rfl⟩⟩
  · rw [cycleStep_of_empty hl, clearFrame_eq_frameCleared]
  · rw [cycleStep_of_line hl]
    exact (exec_eq .frmProcess _).symm

/-! ## What a cycle depends on -/

/-- Two states that a later step of the pipeline does not tell apart: the line with its flags, VFY, the frame registers
and the parameters are the same (R251). -/
structure SamePipeline (s s' : State) : Prop where
  params : s.params = s'.params
  line : sameLine s s'
  vfy : s.status.vfy = s'.status.vfy
  frame : sameFrame s s'

/-- With the frame registers cleared only the line, its flags and the parameters are left to tell (43_frame.md R175). -/
theorem samePipeline_clearFrame {s s' : State} (hp : s.params = s'.params) (hl : sameLine s s')
    (hv : s.status.vfy = s'.status.vfy) : SamePipeline (clearFrame s) (clearFrame s') :=
  ⟨hp, hl, hv, rfl, rfl, rfl, rfl, rfl, rfl⟩

/-- Two transports that return the same line leave the same line and flags (42_line.md R151). -/
theorem sameLine_readIntoLine {s s' : State} (hp : s.params = s'.params) (hl : nextLine s = nextLine s') :
    sameLine (readIntoLine s) (readIntoLine s') := by
  rw [readIntoLine_eq, readIntoLine_eq, hp, hl]
  exact ⟨rfl, rfl, rfl⟩

/-- The verify step reads the line and OVF: it ends alike, with the same checksum where it judged one (43_frame.md
R176). -/
theorem samePipeline_verifyStep {s s' : State} (h : SamePipeline s s') :
    (verifyStep s).1 = (verifyStep s').1 ∧ SamePipeline (verifyStep s).2 (verifyStep s').2 ∧
      ((verifyStep s).1 = .ok ∨ (verifyStep s).1 = .crcMismatch → sameCrc (verifyStep s).2 (verifyStep s').2) := by
  obtain ⟨hp, ⟨hl, ho, ht⟩, hv, hf⟩ := h
  unfold verifyStep
  rw [ho, hl]
  split
  · exact ⟨rfl, ⟨hp, ⟨hl, ho, ht⟩, rfl, hf⟩, nofun⟩
  · split
    · exact ⟨rfl, ⟨hp, ⟨hl, ho, ht⟩, rfl, hf⟩, nofun⟩
    · exact ⟨rfl, ⟨hp, ⟨hl, ho, ht⟩, rfl, hf⟩, fun _ => ⟨rfl, rfl, rfl, rfl⟩⟩
    · exact ⟨rfl, ⟨hp, ⟨hl, ho, ht⟩, rfl, hf⟩, fun _ => ⟨rfl, rfl, rfl, rfl⟩⟩

/-- The verify step leaves VFY = 1 with OK alone (43_frame.md R176). -/
theorem verifyStep_code_of_vfy {s : State} (h : (verifyStep s).2.status.vfy = true) : (verifyStep s).1 = .ok := by
  rcases verifyStep_cases s with ⟨-, e⟩ | ⟨-, -, e⟩ | ⟨c, -, -, e⟩ | ⟨c, -, -, e⟩ <;> rw [e] at h
  case inr.inr.inl => rw [e]
  all_goals cases h

/-- The tokenize step reads the line, OVF and the parameters, and leaves ACC and CHK0 to CHK2 (43_frame.md R181). -/
theorem samePipeline_tokenizeStep {s s' : State} (h : SamePipeline s s') :
    (tokenizeStep s).1 = (tokenizeStep s').1 ∧ SamePipeline (tokenizeStep s).2 (tokenizeStep s').2 := by
  obtain ⟨hp, ⟨hl, ho, ht⟩, hv, -⟩ := h
  have hclear := samePipeline_clearFrame hp ⟨hl, ho, ht⟩ hv
  unfold tokenizeStep
  rw [ho, hl]
  split
  · exact ⟨rfl, hclear⟩
  · split
    · exact ⟨rfl, hclear⟩
    · unfold storeFrame
      simp only [clearFrame_params, hp]
      split
      · exact ⟨rfl, hclear⟩
      · exact ⟨rfl, hp, ⟨hl, ho, ht⟩, hv, rfl, rfl, rfl, rfl, rfl, rfl⟩

/-- The tokenize step does not write ACC and CHK0 to CHK2 (43_frame.md R181). -/
theorem sameCrc_tokenizeStep {s s' : State} (h : sameCrc s s') : sameCrc (tokenizeStep s).2 (tokenizeStep s').2 := by
  obtain ⟨_, _, _, _, _, _, e⟩ := tokenizeStep_frame s
  obtain ⟨_, _, _, _, _, _, e'⟩ := tokenizeStep_frame s'
  rw [e, e']
  exact h

/-- The codes of a line whose checksum was judged (R307). -/
abbrev judgedCodes : List ResCode := [.ok, .crcMismatch, .unknownCode, .nonascii]

/-- The pipeline reads the line, OVF and the parameters: it ends alike, with the same checksum where it judged one
(43_frame.md R183, R307). -/
theorem samePipeline_processStep {s s' : State} (hp : s.params = s'.params) (hl : sameLine s s')
    (hv : s.status.vfy = s'.status.vfy) :
    (processStep s).1 = (processStep s').1 ∧ SamePipeline (processStep s).2 (processStep s').2 ∧
      ((processStep s).1 ∈ judgedCodes ∨ (processStep s).2.status.vfy = true →
        sameCrc (processStep s).2 (processStep s').2) := by
  obtain ⟨ec, hs, hcrc⟩ := samePipeline_verifyStep (samePipeline_clearFrame hp hl hv)
  obtain ⟨etok, htok⟩ := samePipeline_tokenizeStep hs
  unfold processStep
  dsimp only
  by_cases hok : (verifyStep (clearFrame s)).1 = .ok
  · have htcrc := sameCrc_tokenizeStep (hcrc (.inl hok))
    rw [if_pos hok, if_pos (ec ▸ hok)]
    unfold tokenizeEmit
    dsimp only
    rw [← etok]
    split
    · obtain ⟨hp', hl', hv', hf'⟩ := htok
      exact ⟨rfl, ⟨hp', hl', hv', hf'⟩, fun _ => htcrc⟩
    · exact ⟨etok, htok, fun _ => htcrc⟩
  · rw [if_neg hok, if_neg (ec ▸ hok)]
    refine ⟨ec, hs, fun hj => hcrc (.inr ?_)⟩
    rcases hj with hmem | hvfy
    · have hcode := verifyStep_code (clearFrame s)
      generalize (verifyStep (clearFrame s)).1 = c at hok hmem hcode
      cases c <;> simp_all [mayReport]
    · exact absurd (verifyStep_code_of_vfy hvfy) hok

/-- The pipeline's new events are those of its outcome: the record of the frame registers with OK, else none
(43_frame.md R183). -/
theorem processStep_events {s s' : State} (hc : (processStep s).1 = (processStep s').1)
    (hf : sameFrame (processStep s).2 (processStep s').2) :
    ∃ es, (processStep s).2.hist = s.hist ++ es ∧ (processStep s').2.hist = s'.hist ++ es := by
  obtain ⟨_, _, _, _, _, _, _, _, _, _, _, es, e, he⟩ := processStep_frame s
  obtain ⟨_, _, _, _, _, _, _, _, _, _, _, es', e', he'⟩ := processStep_frame s'
  have hrec : tokenRecord (processStep s).2 = tokenRecord (processStep s').2 := by
    obtain ⟨ha, h0, h1, -, ht, hm⟩ := hf
    simp only [tokenRecord, ha, h0, h1, ht, hm]
  rw [← hc, ← hrec, ← he] at he'
  exact ⟨es, congrArg State.hist e, he' ▸ congrArg State.hist e'⟩

/-- What two cycles on the same line have in common: code, verdict, line, frame registers and new events, and the
checksum where it was judged (R251, R307). -/
theorem cycleStep_alike {s s' : State} (hp : s.params = s'.params) (hl : nextLine s = nextLine s') :
    (cycleStep s).1 = (cycleStep s').1 ∧ SamePipeline (cycleStep s).2 (cycleStep s').2 ∧
      (∃ es, (cycleStep s).2.hist = s.hist ++ es ∧ (cycleStep s').2.hist = s'.hist ++ es) ∧
      ((cycleStep s).1 ∈ judgedCodes ∨ (cycleStep s).2.status.vfy = true →
        sameCrc (cycleStep s).2 (cycleStep s').2) := by
  have hparams : (readIntoLine s).params = (readIntoLine s').params := by simpa only [readIntoLine_eq] using hp
  have hvfy (u : State) : (readIntoLine u).status.vfy = false := by rw [readIntoLine_eq]
  have hhist (u : State) : (readIntoLine u).hist = u.hist ++ [.readLine (nextLine u)] := by rw [readIntoLine_eq]
  have hline := sameLine_readIntoLine hp hl
  have hv := (hvfy s).trans (hvfy s').symm
  by_cases hn : nextLine s = []
  · rw [cycleStep_of_empty hn, cycleStep_of_empty (hl ▸ hn)]
    refine ⟨rfl, samePipeline_clearFrame hparams hline hv, ⟨_, hhist s, hl ▸ hhist s'⟩, ?_⟩
    rintro (hj | hj)
    · exact absurd (show ResCode.empty ∈ judgedCodes from hj) (by decide)
    · exact absurd ((hvfy s).symm.trans hj) Bool.false_ne_true
  · rw [cycleStep_of_line hn, cycleStep_of_line (hl ▸ hn)]
    obtain ⟨hc, hs, hcrc⟩ := samePipeline_processStep hparams hline hv
    obtain ⟨es, e, e'⟩ := processStep_events hc hs.frame
    refine ⟨hc, hs, ⟨.readLine (nextLine s) :: es, ?_, ?_⟩, hcrc⟩
    · rw [e, hhist, List.append_assoc]; rfl
    · rw [e', hhist, List.append_assoc, hl]; rfl

/-- Settles O39: what two cycles on the same line have in common, each with its `finish`. -/
theorem cyclesDependOnlyOnTheirLine : Obligations.CyclesDependOnlyOnTheirLine := by
  intro s s' hq hq' hp hl
  obtain ⟨hc, hs, ⟨es, e, e'⟩, hcrc⟩ := cycleStep_alike hp hl
  exact ⟨_, _, es, exec_seqCycle hq, exec_seqCycle hq', e, e', hc, hs.vfy, hs.line, hs.frame, hcrc⟩

/-! ## SEQ.ESTABLISH -/

/-- SEQ.ESTABLISH is refused with no address held (R246). -/
theorem establishRefusal_noAddr {s : State} (hq : s.sess = .idle ∨ s.sess = .found) (ho : s.status.opn = false)
    (ha : s.status.addrv = false) : establishRefusal s = some .noAddr := by
  rw [establishRefusal, if_neg (by tauto), if_neg (by rw [ho]; exact Bool.false_ne_true), if_pos ha]

/-- SEQ.ESTABLISH where it runs (R246). -/
theorem exec_seqEstablish {s : State} (p : Byte) (hq : s.sess = .idle ∨ s.sess = .found) (ho : s.status.opn = false)
    (ha : s.status.addrv = true) :
    exec (.seqEstablish p) s = .next (finished (establishSession p.toNat s).1 (establishSession p.toNat s).2) :=
  exec_of_allowed rfl (establishRefusal_eq_none.2 ⟨hq, ho, ha⟩)

/-- Settles O37: no port, a port that does not open, and an opened port with its reply. -/
theorem seqEstablishStartsOrFails : Obligations.SeqEstablishStartsOrFails := by
  intro s p
  refine ⟨fun h => exec_of_refused rfl (establishRefusal_eq_badState.2 h),
    fun hq ho ha => exec_of_refused rfl (establishRefusal_noAddr hq ho ha), fun hq ho ha => ?_⟩
  rw [exec_seqEstablish p hq ho ha]
  rcases establishSession_cases p.toNat s with ⟨hp, e⟩ | ⟨hp, e⟩ | ⟨hp, r, x, v, -, hv, e⟩ <;> rw [e]
  · exact ⟨_, [], rfl, (List.append_nil _).symm, rfl, rfl, ha, ⟨rfl, rfl, rfl, rfl⟩, ⟨rfl, rfl, rfl, rfl, rfl, rfl⟩,
      ⟨rfl, rfl⟩, .inr (.inr ⟨rfl, ⟨rfl, rfl, ho, rfl⟩, ⟨rfl, rfl, rfl⟩, rfl, rfl, .inl ⟨rfl, hp⟩⟩)⟩
  · exact ⟨_, _, rfl, rfl, rfl, rfl, ha, ⟨rfl, rfl, rfl, rfl⟩, ⟨rfl, rfl, rfl, rfl, rfl, rfl⟩,
      ⟨rfl, rfl⟩, .inr (.inr ⟨rfl, ⟨rfl, rfl, ho, rfl⟩, ⟨rfl, rfl, rfl⟩, rfl, rfl, .inr ⟨rfl, hp⟩⟩)⟩
  · refine ⟨_, _, rfl, rfl, rfl, rfl, ha, ⟨rfl, rfl, rfl, rfl⟩, ⟨rfl, rfl, rfl, rfl, rfl, rfl⟩, ⟨rfl, rfl⟩, ?_⟩
    cases v with
    | true =>
      exact .inl ⟨rfl, rfl, rfl, rfl, portByte_toNat p, rfl, hp, r, rfl, hv, rfl, rfl, endsInLf_eq r, rfl⟩
    | false =>
      exact .inr (.inl ⟨rfl, ⟨rfl, rfl, rfl, rfl⟩, portByte_toNat p, hp, r, rfl, hv, rfl, rfl, endsInLf_eq r, rfl⟩)

/-! ## SEQ.DISCOVER -/

/-- SEQ.DISCOVER in IDLE with no port open (R239). -/
theorem exec_seqDiscover {s : State} (hq : s.sess = .idle) (ho : s.status.opn = false) :
    exec .seqDiscover s = .next (finished (discoverAll s).1 (discoverAll s).2) :=
  exec_of_allowed rfl (openRefusal_eq_none.2 ⟨hq, ho⟩)

/-- A discovery that finds the device ends with OK (R239). -/
theorem discoverAll_of_found {s t : State}
    (h : probeAll (allCandidates s) .openFailed (startScan s) = (.found, t)) : discoverAll s = (.ok, t) := by
  rw [discoverAll, h]; rfl

/-- A discovery that finds none is a setup failure (R239). -/
theorem discoverAll_of_not_found {s t : State} {o : ProbeOutcome} (ho : o ≠ .found)
    (h : probeAll (allCandidates s) .openFailed (startScan s) = (o, t)) :
    discoverAll s = (.notFound, setFatal .notFound t) := by
  rw [discoverAll, h]; simp only [if_neg ho]

/-- The candidates searched are the two loops of R239. -/
theorem allCandidates_eq_candidates (s : State) : allCandidates s = candidates s.params := rfl

/-- Settles O35: refused by its checks, or a search over every candidate, which ends at the first found or after the
last one's failure. -/
theorem seqDiscoverSearchesEveryCandidate : Obligations.SeqDiscoverSearchesEveryCandidate := by
  intro s
  refine ⟨fun h => exec_of_refused rfl (openRefusal_badState h), fun hq ho => ?_⟩
  rw [exec_seqDiscover hq ho]
  rcases probeAll_ends (allCandidates s) .openFailed (startScan s) nofun ho rfl with
    ⟨p, b, a, r1, r2, x, tried, before, rest, t, -, -, h1, ha, hi, hcs, hf, ⟨hpf, haf, hlf⟩, e, rfl⟩ |
    ⟨o, a, pt, l, es, x, tm, ov, vf, t, hn, hes, ⟨hpf, haf, hlf⟩, e, rfl⟩
  · rw [discoverAll_of_found e]
    refine ⟨_, before ++ foundExchange p b a r1 r2, rfl, rfl, rfl, ⟨rfl, rfl, rfl, rfl⟩,
      ⟨rfl, rfl, rfl, rfl, rfl, rfl⟩, ⟨rfl, rfl⟩, rfl, hpf, haf, hlf, .inl ?_⟩
    refine ⟨rfl, rfl, rfl, rfl, p, b, r1, r2, before, rest, rfl, rfl, rfl, h1, ha, ⟨rfl, rfl, endsInLf_eq r2, rfl⟩, hi,
      ?_, tried, rest, hcs, hf⟩
    rw [openedCandidates_append, openedCandidates_of_failing hf, ← allCandidates_eq_candidates, hcs]
    simp [foundExchange, openedCandidates]
  · have hfail : failingExchanges s.params (candidates s.params) es := by
      rw [← allCandidates_eq_candidates]
      rcases hes with ⟨hcs, rfl, -⟩ | ⟨tried, c, before, last, hcs, rfl, hf, hl⟩ <;> rw [hcs]
      · rfl
      · exact failingExchanges_concat hf hl
    rw [discoverAll_of_not_found hn e]
    exact ⟨_, es, rfl, rfl, rfl, ⟨rfl, rfl, rfl, rfl⟩, ⟨rfl, rfl, rfl, rfl, rfl, rfl⟩, ⟨rfl, rfl⟩, rfl, hpf, haf, hlf,
      .inr ⟨rfl, rfl, rfl, rfl, rfl, openedCandidates_of_failing hfail, hfail⟩⟩

/-! ## Discovery on a scripted transport -/

/-- On an empty queue a listed legal line is read and loaded, and used up (20_memory.md R69, 42_line.md R151). -/
theorem readIntoLine_of_lines {s : State} {l : Bytes} {ls : List Bytes} (hr : s.xpt.rx = [])
    (hl : s.xpt.lines = l :: ls) (ok : lineLegal l = true) :
    readIntoLine s = { s with
      lbuf := l.take s.params.lbufMax
      hist := s.hist ++ [.readLine l]
      xpt := { s.xpt with rx := [], lines := ls, linesDrawn := s.xpt.linesDrawn + 1 }
      status := lineStatus s.status s.params.lbufMax l } := by
  rw [readIntoLine_eq, nextLine_of_lines hr hl ok, afterRead_of_lines hr hl ok]

/-- A first request answered by a listed legal line (R237): the flush before it empties the queue. -/
theorem firstRequest_of_lines (frame : Bytes) {s : State} {l : Bytes} {ls : List Bytes} (hl : s.xpt.lines = l :: ls)
    (ok : lineLegal l = true) :
    firstRequest frame s = { s with
      lbuf := l.take s.params.lbufMax
      hist := s.hist ++ requestEvents frame l
      xpt := { s.xpt with rx := [], lines := ls, linesDrawn := s.xpt.linesDrawn + 1 }
      status := lineStatus s.status s.params.lbufMax l } := by
  rw [firstRequest, readIntoLine_of_lines (s := xptWrite frame (xptFlush (xptSettle s))) rfl hl ok]
  simp [xptWrite, xptFlush, xptSettle, logEvent]

/-- The settings request answered by a listed legal line (R237). -/
theorem askSettings_of_lines {s : State} {l : Bytes} {ls : List Bytes} (hl : s.xpt.lines = l :: ls)
    (ok : lineLegal l = true) :
    askSettings s = { s with
      lbuf := l.take s.params.lbufMax
      hist := s.hist ++ [.flush, .write (settingsFrame s.addr), .readLine l, .close]
      xpt := { s.xpt with rx := [], lines := ls, linesDrawn := s.xpt.linesDrawn + 1 }
      status := { lineStatus s.status s.params.lbufMax l with opn := false } } := by
  rw [askSettings, readIntoLine_of_lines (s := xptWrite (settingsFrame s.addr) (xptFlush s)) rfl hl ok]
  simp [xptWrite, xptFlush, xptClose, logEvent]

/-- The transport lists these answers to opens and these lines. -/
structure Lists (t : Transport) (os : List Bool) (ls : List Bytes) : Prop where
  opens : t.opens = os
  lines : t.lines = ls

/-- The first byte of a line is loaded where the line buffer has room for one byte (42_line.md R150). -/
theorem take_cons_of_pos {a : Byte} {l : Bytes} {n : Nat} (h : 1 ≤ n) : (a :: l).take n = a :: l.take (n - 1) := by
  obtain ⟨m, rfl⟩ := Nat.exists_eq_add_of_le' h
  rfl

/-- A candidate that is listed not to open fails (R237). -/
theorem probeCandidate_of_closed (p b : Nat) {s : State} {os : List Bool} {ls : List Bytes}
    (h : Lists s.xpt (false :: os) ls) :
    probeCandidate p b s = (.openFailed, { s with hist := s.hist ++ [.openPort p b false], xpt := s.xpt.afterOpen }) ∧
      Lists s.xpt.afterOpen os ls := by
  have ho := nextOpen_of_cons h.opens
  refine ⟨?_, by rw [Transport.afterOpen, h.opens]; rfl, h.lines⟩
  rw [probeCandidate, ho, if_neg Bool.false_ne_true, xptOpen_fail p b ho]

/-- A candidate that is listed to open and to answer with a line that gives no address fails (R237). -/
theorem probeCandidate_of_silent (p b : Nat) {s : State} {r : Bytes} {os : List Bool} {ls : List Bytes}
    (h : Lists s.xpt (true :: os) (r :: ls)) (ok : lineLegal r = true)
    (hr : addressOk (r.take s.params.lbufMax) = false) :
    ∃ t, probeCandidate p b s = (.noAddressReply, t) ∧ t.hist = s.hist ++ silentExchange p b r ∧
      t.params = s.params ∧ Lists t.xpt os ls := by
  have ho := nextOpen_of_cons h.opens
  have e := firstRequest_of_lines probeFrame (s := xptOpen p b s) h.lines ok
  refine ⟨xptClose (firstRequest probeFrame (xptOpen p b s)), ?_, ?_, ?_, ?_⟩
  · rw [probeCandidate, ho, if_pos rfl, probeOpened, e]
    simp [hr]
  · rw [e]
    simp [ho, silentExchange, probeFrame]
  · rw [e]; rfl
  · rw [e]
    exact ⟨by simp [Transport.afterOpen, h.opens], rfl⟩

/-- Step 3 of R237: a reply that starts with an address leads to the settings request, whose reply decides. -/
theorem probeOpened_of_address {s : State} {a : Byte} {rest : Bytes}
    (h : (firstRequest probeFrame s).lbuf = a :: rest) (ha : isAlnum a = true) :
    probeOpened s =
      if identOk (askSettings (setAddr a (firstRequest probeFrame s))).params.modelId
          (askSettings (setAddr a (firstRequest probeFrame s))).lbuf then
        (.found, askSettings (setAddr a (firstRequest probeFrame s)))
      else (.noMatch, setAddrv false (askSettings (setAddr a (firstRequest probeFrame s)))) := by
  have hok : addressOk (firstRequest probeFrame s).lbuf = true := by rw [h]; exact ha
  rw [probeOpened]
  dsimp only
  rw [if_pos hok, h, List.headD_cons]

/-- A candidate that is listed to open and to answer with an address and a settings reply is found exactly when that
reply holds the model identifier (R237). -/
theorem probeCandidate_of_addressed (p b : Nat) {s : State} {a : Byte} {r1 r2 : Bytes} {os : List Bool}
    {ls : List Bytes} (h : Lists s.xpt (true :: os) ((a :: r1) :: r2 :: ls)) (hb : 1 ≤ s.params.lbufMax)
    (ok1 : lineLegal (a :: r1) = true) (ok2 : lineLegal r2 = true) (ha : isAlnum a = true) :
    ∃ x, Lists x os ls ∧ probeCandidate p b s =
      (if contains s.params.modelId (r2.take s.params.lbufMax) then .found else .noMatch,
        addressedState p b a (a :: r1) r2 x (contains s.params.modelId (r2.take s.params.lbufMax)) s) := by
  have ho := nextOpen_of_cons h.opens
  have e1 := firstRequest_of_lines probeFrame (s := xptOpen p b s) h.lines ok1
  have e2 := askSettings_of_lines (s := setAddr a (firstRequest probeFrame (xptOpen p b s))) (l := r2) (ls := ls)
    (by rw [e1]; rfl) ok2
  refine ⟨(askSettings (setAddr a (firstRequest probeFrame (xptOpen p b s)))).xpt, ?_, ?_⟩
  · rw [e2, e1]
    exact ⟨by simp [Transport.afterOpen, h.opens], rfl⟩
  · have hl : (firstRequest probeFrame (xptOpen p b s)).lbuf = a :: r1.take (s.params.lbufMax - 1) := by
      rw [e1]; exact take_cons_of_pos hb
    rw [probeCandidate, ho, if_pos rfl, probeOpened_of_address hl ha, e2, e1, xptOpen_ok p b ho]
    cases hi : contains s.params.modelId (r2.take s.params.lbufMax) <;> simp [identOk, hi, setAddr, setAddrv]

/-- A candidate whose listed answers are those of a failing script fails with the script's events, and the answers
behind them are left (R237). -/
theorem probeCandidate_of_scriptFails (p b : Nat) {s : State} {answer : Option (List Bytes)} {os : List Bool}
    {ls : List Bytes} (h : Lists s.xpt (answer.isSome :: os) (answer.getD [] ++ ls)) (hb : 1 ≤ s.params.lbufMax)
    (hf : scriptFails s.params answer) :
    ∃ o t, probeCandidate p b s = (o, t) ∧ o ≠ .found ∧ t.hist = s.hist ++ scriptEvents p b answer ∧
      t.params = s.params ∧ Lists t.xpt os ls := by
  rcases hf with rfl | ⟨r, rfl, ok, hr⟩ | ⟨a, r1, r2, rfl, ok1, ok2, ha, hi⟩
  · obtain ⟨e, hl⟩ := probeCandidate_of_closed p b h
    exact ⟨_, _, e, nofun, rfl, rfl, hl⟩
  · have hno : addressOk (r.take s.params.lbufMax) = false := by
      cases r with
      | nil => rw [List.take_nil]; rfl
      | cons c r => rw [take_cons_of_pos hb]; exact hr c rfl
    obtain ⟨t, e, hh, hp, hl⟩ := probeCandidate_of_silent p b h ok hno
    exact ⟨_, t, e, nofun, hh, hp, hl⟩
  · obtain ⟨x, hl, e⟩ := probeCandidate_of_addressed p b h hb ok1 ok2 ha
    rw [hi] at e
    exact ⟨_, _, e, nofun, rfl, rfl, hl⟩

/-- A search goes past candidates whose listed answers are failing scripts, with their events and no others (R239,
R240). -/
theorem probeAll_of_scriptFails (before rest : List (Nat × Nat)) (o : ProbeOutcome) {s : State}
    {earlier : List (Option (List Bytes))} {os : List Bool} {ls : List Bytes} (hlen : earlier.length = before.length)
    (h : Lists s.xpt (earlier.map Option.isSome ++ os) (earlier.flatMap (fun answer => answer.getD []) ++ ls))
    (hb : 1 ≤ s.params.lbufMax) (hf : ∀ answer ∈ earlier, scriptFails s.params answer) :
    ∃ o' t, probeAll (before ++ rest) o s = probeAll rest o' t ∧
      t.hist = s.hist ++ (before.zip earlier).flatMap (fun c => scriptEvents c.1.1 c.1.2 c.2) ∧
      t.params = s.params ∧ Lists t.xpt os ls := by
  induction before generalizing earlier o s with
  | nil =>
    obtain rfl := List.eq_nil_of_length_eq_zero hlen
    exact ⟨o, s, rfl, (List.append_nil _).symm, rfl, h⟩
  | cons c before ih =>
    obtain ⟨answer, earlier, rfl⟩ := List.exists_cons_of_length_eq_add_one hlen
    obtain ⟨hfirst, hrest⟩ := List.forall_mem_cons.1 hf
    rw [List.flatMap_cons, List.append_assoc] at h
    obtain ⟨o1, u, e, hn, hh, hp, hl⟩ := probeCandidate_of_scriptFails c.1 c.2 h hb hfirst
    rw [← hp] at hb hrest
    obtain ⟨o', t, e', hh', hp', hl'⟩ := ih o1 (Nat.succ.inj hlen) hl hb hrest
    refine ⟨o', t, ?_, ?_, hp'.trans hp, hl'⟩
    · rw [List.cons_append, probeAll, e, if_neg hn, e']
    · rw [hh', hh, List.append_assoc]; rfl

/-- Settles O36: the search goes past the failing scripts and stops at the candidate that answers. -/
theorem seqDiscoverFindsTheFirstAnsweringPort : Obligations.SeqDiscoverFindsTheFirstAnsweringPort := by
  intro s before after p b earlier os a r1 r2 ls hq ho hb hcs hlen hf hopens hlines ok1 ok2 ha hi
  obtain ⟨o, u, e, hh, hp, hl⟩ := probeAll_of_scriptFails before ((p, b) :: after) .openFailed (s := startScan s) hlen
    ⟨hopens, hlines⟩ hb hf
  replace hp : u.params = s.params := hp
  rw [← hp] at hb hi
  obtain ⟨x, -, ef⟩ := probeCandidate_of_addressed p b hl hb ok1 ok2 ha
  rw [hi, if_pos rfl] at ef
  have hfound : probeAll (allCandidates s) .openFailed (startScan s) =
      (.found, setFound p (addressedState p b a (a :: r1) r2 x true u)) := by
    rw [allCandidates_eq_candidates, hcs, e, probeAll, ef, if_pos rfl]
  rw [exec_seqDiscover hq ho, discoverAll_of_found hfound]
  exact ⟨_, rfl, rfl, rfl, rfl, rfl, rfl, rfl, rfl, ⟨rfl, rfl, endsInLf_eq r2, rfl⟩,
    congrArg (· ++ foundExchange p b a (a :: r1) r2) hh⟩

end Sys2Proof.Proofs


/-! PROOFS. The statements of 60_exceptions.md: a command error changes RES and BUSY alone and a transient code leaves the
session as it was, with no record emitted (R272, R276), and of several instances a step changes one alone (R285). -/

namespace Sys2Proof.Proofs

open Sys2Proof.Machine

/-! ## Command errors -/

/-- Of the codes of a command that has neither NOT_OPEN nor NO_ADDR the one command error is BAD_STATE; ILLEGAL is no
command's (R271). -/
theorem eq_badState_of_commandError {i : Instr} {c : ResCode} (hm : c ∈ mayReport i) (ho : .notOpen ∉ mayReport i)
    (ha : .noAddr ∉ mayReport i) (hc : c.commandError = true) : c = .badState := by
  cases c with
  | badState => rfl
  | notOpen => exact absurd hm ho
  | noAddr => exact absurd hm ha
  | illegal => cases i <;> simp [mayReport] at hm
  | _ => exact absurd hc Bool.false_ne_true

/-- A command whose checks pass ends with no command error (R272 (d), R274). -/
theorem commandError_of_allowed (i : Instr) {s : State} (hr : refusalOf i s = none) :
    (bodyOf i s).1.commandError = false := by
  cases i with
  | txProbe | txSettings | txSetmode | xptSettle | xptFlush =>
    rw [refusalOf] at hr
    rw [bodyOf, guarded_none hr]
    rfl
  | lineRead =>
    rw [refusalOf] at hr
    rw [bodyOf, guarded_none hr, lineReadCode]
    split_ifs <;> rfl
  | seqEstablish p =>
    rw [refusalOf] at hr
    rw [bodyOf, guarded_none hr]
    rcases establishSession_cases p.toNat s with ⟨-, e⟩ | ⟨-, e⟩ | ⟨-, r, x, v, -, -, e⟩ <;> rw [e]
    case inr.inr => cases v <;> rfl
    all_goals rfl
  | _ =>
    obtain ⟨b, hb, e⟩ := bodyOf_eq_guarded _ s
    rw [guarded_none hr] at e
    refine Bool.eq_false_iff.2 fun hc => hb ?_
    rw [← e]
    exact eq_badState_of_commandError (bodyOf_code_mem _ s) (by simp [mayReport]) (by simp [mayReport]) hc

/-- Settles O43: a command error is the answer of a failed check, and a refused command does nothing but `finish`. -/
theorem commandErrorsChangeOnlyRes : Obligations.CommandErrorsChangeOnlyRes := by
  intro i s t he hc
  obtain ⟨b, -, e⟩ := bodyOf_eq_guarded i s
  cases hr : refusalOf i s with
  | some c =>
    rw [exec_of_refused e hr] at he
    cases he
    rfl
  | none =>
    rw [exec_next he] at hc
    exact absurd hc (Bool.eq_false_iff.1 (commandError_of_allowed i hr))

/-! ## Transient codes -/

/-- The opcodes of the commands that report a transient code: LINE.PUT, LINE.READ, the frame commands and SEQ.CYCLE
(R271, R272 (a)). -/
abbrev transientReporters : List Byte := [0x21, 0x22, 0x30, 0x31, 0x32, 0x63]

/-- The table of R271 gives transient codes to these commands alone. -/
theorem opcode_mem_of_transient {i : Instr} {c : ResCode} (hm : c ∈ mayReport i) (hc : c.transient = true) :
    opcode i ∈ transientReporters := by
  have of_none (hn : ∀ c ∈ mayReport i, c.transient = false) : opcode i ∈ transientReporters :=
    absurd hc (Bool.eq_false_iff.1 (hn c hm))
  cases i with
  | linePut | lineRead | frmVerify | frmTokenize | frmProcess | seqCycle => simp [opcode]
  | _ => exact of_none (by simp [mayReport, ResCode.transient])

/-- From s to t only events that emit no record were appended to H (20_memory.md R64, R73). -/
def NoRecord (s t : State) : Prop := ∃ es, t.hist = s.hist ++ es ∧ ∀ e ∈ es, e.isEmit = false

/-- Where H is as it was there is no record. -/
theorem noRecord_of_hist_eq {s t : State} (h : t.hist = s.hist) : NoRecord s t :=
  ⟨[], by rw [h, List.append_nil], nofun⟩

/-- Reading a line records the read alone (42_line.md R154). -/
theorem noRecord_readIntoLine (s : State) : NoRecord s (readIntoLine s) :=
  ⟨[.readLine (nextLine s)], by rw [readIntoLine_eq], List.forall_mem_singleton.2 rfl⟩

/-- The pipeline appends nothing to H where it does not end with OK (43_frame.md R183). -/
theorem processStep_hist {s : State} (h : (processStep s).1 ≠ .ok) : (processStep s).2.hist = s.hist := by
  obtain ⟨_, _, _, _, _, _, _, _, _, _, _, es, e, hes⟩ := processStep_frame s
  rw [if_neg h] at hes
  rw [e, hes]
  exact List.append_nil _

/-- A cycle that does not end with OK emits no record (45_session.md R250). -/
theorem noRecord_cycleStep {s : State} (h : (cycleStep s).1 ≠ .ok) : NoRecord s (cycleStep s).2 := by
  by_cases hl : nextLine s = []
  · rw [cycleStep_of_empty hl]
    exact noRecord_readIntoLine s
  · rw [cycleStep_of_line hl] at h ⊢
    rw [NoRecord, processStep_hist h]
    exact noRecord_readIntoLine s

/-- The commands with transient codes emit a record with OK alone (43_frame.md R183, 45_session.md R250). -/
theorem noRecord_bodyOf {i : Instr} {s : State} (hi : opcode i ∈ transientReporters) (h : (bodyOf i s).1 ≠ .ok) :
    NoRecord s (bodyOf i s).2 := by
  cases i with
  | linePut b => simp only [bodyOf, linePutState_eq]; exact noRecord_of_hist_eq rfl
  | lineRead => exact guarded_keeps (noRecord_of_hist_eq rfl) fun _ => noRecord_readIntoLine s
  | frmVerify => obtain ⟨_, _, _, _, _, e⟩ := verifyStep_frame s; rw [bodyOf, e]; exact noRecord_of_hist_eq rfl
  | frmTokenize => obtain ⟨_, _, _, _, _, _, e⟩ := tokenizeStep_frame s; rw [bodyOf, e]; exact noRecord_of_hist_eq rfl
  | frmProcess => exact noRecord_of_hist_eq (processStep_hist h)
  | seqCycle =>
    refine guarded_keeps (noRecord_of_hist_eq rfl) fun hr => noRecord_cycleStep ?_
    rwa [bodyOf, guarded_none hr] at h
  | _ => simp [opcode] at hi

/-- Settles O44: the commands with transient codes write none of the session's registers, and emit only with OK. -/
theorem transientCodesLeaveTheSession : Obligations.TransientCodesLeaveTheSession := by
  intro i s t he hc
  have hok : t.status.res ≠ .ok := fun h => by rw [h] at hc; cases hc
  have w := bodyOf_onlyWriters i s
  rw [exec_next he] at hc hok ⊢
  have hi := opcode_mem_of_transient (bodyOf_code_mem i s) hc
  have other {l : List Byte} (hd : ∀ o ∈ transientReporters, o ∉ l) : opcode i ∉ l := hd _ hi
  refine ⟨?_, ?_, ?_, ?_, ?_, ?_, noRecord_bodyOf hi hok⟩
  · exact not_not.1 fun h => other (by decide) (w.sess h)
  · exact not_not.1 fun h => other (by decide) (w.fatal h).2
  · exact not_not.1 fun h => other (by decide) (w.opn h)
  · exact not_not.1 fun h => other (by decide) (w.port h)
  · exact not_not.1 fun h => other (by decide) (w.addr (.inl h)).2
  · exact not_not.1 fun h => other (by decide) (w.addr (.inr h)).2

/-! ## Several instances -/

/-- A system's step is the step of one of its instances, written in its place (R285). -/
theorem stepInstance_eq_some {k : Nat} {sys sys' : List State} (h : stepInstance k sys = some sys') :
    ∃ s t, sys[k]? = some s ∧ step s = .next t ∧ sys' = sys.set k t := by
  unfold stepInstance at h
  split at h
  · cases h
  · next s hs =>
    split at h
    · next t ht => exact ⟨s, t, hs, ht, (Option.some.inj h).symm⟩
    · cases h
    · cases h

/-- Settles O60: a system's step writes position k of the list alone. -/
theorem instancesDoNotTouchEachOther : Obligations.InstancesDoNotTouchEachOther := by
  intro sys sys' k h
  obtain ⟨s, t, -, -, rfl⟩ := stepInstance_eq_some h
  exact ⟨List.length_set, fun j hj => List.getElem?_set_ne hj.symm⟩

end Sys2Proof.Proofs


/-! PROOFS. The statement of 70_reset_and_hazards.md about a reset after a finished command (R300): it leaves what a reset
before the command leaves. -/

namespace Sys2Proof.Proofs

open Sys2Proof.Machine

/-- A command leaves the host's inputs and the parameters as they were (10_state.md R46, 60_exceptions.md R290). -/
theorem exec_sameOutside {i : Instr} {s t : State} (h : exec i s = .next t) : sameOutside s t := by
  obtain ⟨es, hp⟩ := bodyOf_performs i s
  rw [exec_next h]
  exact hp.outside

/-- Of the state before it, a reset keeps the host's inputs and the parameters alone (R300, R303). -/
theorem resetBlock_congr {s t : State} (after : Transport) (h : sameOutside s t) :
    resetBlock after t = resetBlock after s := by
  obtain ⟨hhost, hparams⟩ := h
  rw [resetBlock, hhost, hparams, resetBlock]

/-- Settles O9: the command changes neither of the two things a reset keeps. -/
theorem resetLosesARunningCommand : Obligations.ResetLosesARunningCommand :=
  fun _ _ _ after h => resetBlock_congr after (exec_sameOutside h)

end Sys2Proof.Proofs
